-- ==== Sys2Proof/Word.lean ====
section
/-! DEFINITION. The word types of the block. -/

namespace Sys2Proof

/-- A byte of a message, a record or a memory (R11, R43). -/
abbrev Byte := BitVec 8

/-- A 32-bit register (R13). -/
abbrev W32 := BitVec 32

/-- A 64-bit register or count (R13). -/
abbrev W64 := BitVec 64

/-- A package address of 56 bits (R215). -/
abbrev Addr := BitVec 56

end Sys2Proof
end

