-- ==== Sys2Proof/Syntax.lean ====
section
/-! DEFINITION. The commands of the block: one constructor per row of opcode_table.json. The table gives
no operands; those here are the model's own (log 6): who is addressed, what a message or write carries,
and what the environment answers. -/

namespace Sys2Proof

/-- A region of the chiplet, 0-7. -/
abbrev Region := Fin 8
/-- A logical cluster of a region, 0-7. -/
abbrev Cluster := Fin 8
/-- A causeway port, 0-6 (R254). -/
abbrev Port := Fin 7
/-- A global bundle number, 0-81 (R254). -/
abbrev BundleNo := Fin 82
/-- A command ring of a region (R353). -/
abbrev RingNo := Fin 8
/-- An instance slot of a region as this chiplet keeps it: slots 0-31 of its own instances, and 32d + s for slot
s of that region on the chiplet whose ID is d above its own, modulo 8, which has positions here (R360; log
142). -/
abbrev SlotNo := Fin 256

/-- The STATUS of a response (R296). -/
inductive Status where
  | ok | error | poison | refused | down | timeout | unsupported
  deriving DecidableEq, Repr

/-- What an access beyond the chiplet answered; `crcs` are the CRCs that a stack returns with its data, as in
the result of an RCMP (R297, R310). -/
structure Rsp where
  st : Status
  data : List Byte
  crcs : W64
  deriving DecidableEq, Repr

/-- What the environment supplies to a command that touches memory: the answers of accesses beyond the
chiplet, in the order made, and the upsets that this command's reads meet: lagoon blocks whose CRC check
fails once or twice (R225), shoal words with a single-bit or an uncorrectable error (R231). For the few
commands that need them: chiplets that object to Ebb, with code and place (R381); whether this command's appends
and their retry fail in this chiplet's flash, or in a mirror's (R445, R447), and the log records that reach this
chiplet with the command, those of others on the lead and those it mirrors on a mirror (R442, R445); the ROUTE
that comes with an ID (R342); whether
every array of a group on other chiplets has completed its part of a tile without ABORT (R146); whether a
conflict of R19 or R202 stands on another chiplet, and then whether every instance in it may be preempted
(R364-R366). -/
structure Env where
  ext : List Rsp
  crcOnce : List Nat
  crcTwice : List Nat
  eccOne : List Nat
  eccTwo : List Nat
  peers : List (BitVec 3 × BitVec 4 × BitVec 8)
  logBad : Bool
  mirrorBad : Bool
  records : List (List Byte)
  route : BitVec 24
  groupDone : Bool
  away : Option Bool
  deriving DecidableEq, Repr

/-- An environment that adds nothing. -/
def Env.quiet : Env :=
  { ext := [], crcOnce := [], crcTwice := [], eccOne := [], eccTwo := [], peers := [], logBad := false,
    mirrorBad := false, records := [], route := 0, groupDone := false, away := none }

/-- A request's fields (R295); `len` is in bytes, OPERAND0 and OPERAND1 as in its second slot. -/
structure Req where
  src : BitVec 3
  tag : BitVec 14
  len : Nat
  ostr : BitVec 8
  oseq : BitVec 12
  addr : Addr
  op0 : W64
  op1 : W64
  deriving DecidableEq, Repr

/-- What the controller that owns an instance tells this chiplet of it (R185, R188, R195, R206, R366, R372): the
instance, and by command what BIND, START and RESUME have settled. -/
structure Far where
  chip : BitVec 3
  slot : Fin 32
  chartNo : BitVec 12                  -- BIND
  args : List Byte                     -- BIND: the argument block
  recBase : Addr                       -- BIND
  groups : List Nat                    -- BIND: the groups that run
  bounds : List Nat                    -- START
  counters : List (Nat × Nat × Nat)    -- START, RESUME: counters held here, with VALUE and LIMIT
  redo : List (Nat × List Nat)         -- RESUME: redo entries of the groups led here
  deriving DecidableEq, Repr

/-- What the chiplets with an instance's other positions report once all of these rest (R147, R361, R370,
R371): tiles written back of groups led there, fault records written for the instance, the lowest tile
aborted, and the tiles that each group must do again. -/
structure FarEnd where
  tiles : Nat
  faults : Nat
  first : Option Nat
  owed : List (Nat × Nat)
  deriving DecidableEq, Repr

/-- Who writes or reads a register (R13, R34, R148, R221). -/
inductive Initiator where
  | controller (r : Region)   -- one of the chiplet's own region controllers, as R148 names them
  | family                    -- an RQ-family initiator
  | i3c                       -- I3C on the lead
  | tap                       -- the TAP's instruments
  deriving DecidableEq, Repr

/-- What a chiplet reports in discovery (R342): ID, stepping, grade, straps, and for each of its ports that
is up the capability record of the partner. -/
structure Found where
  id : BitVec 3
  stepping : BitVec 8
  grade : Bool
  strap : BitVec 2
  ports : List (Port × List Byte)
  deriving DecidableEq, Repr

/-- Outcomes that a start-up step meets in the die and in the package (R341). -/
structure StartEnv where
  romOk : Bool            -- step 1: Prodom's ROM and root key hash
  refclkOk : Bool         -- step 2
  pllLock : Bool          -- step 2
  trim : BitVec 16        -- step 2: oscillator trim code (R325)
  flashOk : Bool          -- step 3: SFDP and 8D-8D-8D (R331)
  readOk : Bool           -- steps 3 to 5: no read error
  density : Nat           -- step 3: bytes of the flash, as SFDP reports (R331, R405)
  flash : List (Nat × Byte)   -- what the chiplet's own flash holds; unlisted, 0xFF in the log area and 0 elsewhere
  share : List (Nat × Byte)   -- step 12, on a member: the image that the lead sent (R340)
  found : List Found      -- steps 9 and 10: every other chiplet named
  pkgFeat : W32           -- step 10, on a member: the set that the lead writes (R343)
  serial : W64            -- the part's serial number
  helper : List Byte      -- step 12, on a member: the helper entry that the lead sent (R405)
  records : List (List Byte)  -- step 12, on a member: its log records that the lead sent, oldest first (R402, R444)
  powerOn : W64           -- step 12, on a member: PK_POWERON (R444)
  baseFail : Option (BitVec 8)   -- step 13: base-tier self-test (R347)
  bonds : List (Nat × Nat)       -- step 13: group and bond, 32 for the spare, of each bond that fails (R14)
  sitesOk : List (BitVec 9)      -- steps 13, 14: sites of each region that pass self-test
  fwReady : List Region   -- step 16
  othersReady : Bool      -- step 17: every other chiplet is ready
  aoCycles : W32          -- step 17: always-on cycles since leaving reset
  env : Env
  deriving DecidableEq, Repr

/-- A TAP instruction (R428). -/
inductive TapInstr where
  | bypass | idcode | sample | extest | scan | mbist
  | observe               -- select the D1 observation instruments
  | halt (domain : Nat)   -- D2: halt region (0-7) or cluster (8 + 8r + c) domain
  | release (domain : Nat)
  | shift (id : BitVec 3) (data : W64)   -- 64 bits into an open remote segment (R429)
  | lagoonWrite (block : Nat) (data : List Byte) (crc : BitVec 16) (poison : Bool)  -- D2 (R423)
  | lagoonRead (block : Nat)
  | segment (id : BitVec 3) (isOpen : Bool)  -- segment insertion bits (R429)
  deriving DecidableEq, Repr

/-- The commands. -/
inductive Instr where
  -- start-up, reset and package (10)
  | rstNDeassert (strap : BitVec 2) (vct : Nat)
  | resetAssert (pwrgood : Bool)
  | upstreamClockLoss
  | forwardedClockArrival (ports : List Port)
  | standbyTimeout (refclk : Bool)
  | startupStepAdvance (e : StartEnv)
  | pkAssign (v : W32) (e : Env)
  | stackReadyTimeout (w : Fin 2)
  | firmwareReadyTimeout (r : Region)
  | haltReport (reports : List (BitVec 3 × BitVec 8 × BitVec 16))
  -- causeway link (08)
  | bundleClockTimeout (b : BundleNo) (got : List BundleNo)
  | bundleLockDone (b : BundleNo)
  | laneAlignDone (b : BundleNo) (bad : BitVec 36)
  | laneAcceptanceDone (b : BundleNo) (bad : BitVec 36) (clkOk : Bool)
  | mapMessageAccepted (b : BundleNo) (uis : List (BitVec 36)) (e : Env)
  | prbsMapTimeout (b : BundleNo)
  | syncTimeout (b : BundleNo) (e : Env)
  | flitReceived (b : BundleNo) (uis : List (BitVec 36)) (e : Env)
  | replayTimeout (b : BundleNo)
  | diagReq (b : BundleNo)
  | diagCheckDone (b : BundleNo) (bad : BitVec 36) (clkOk : Bool) (cc : Nat) (e : Env)
  | diagMapTimeout (b : BundleNo) (e : Env)
  | retire (p : Port) (lb : BitVec 8) (lastSeq : BitVec 12) (e : Env)
  | retireAck (p : Port) (lb : BitVec 8)
  | replayBufferEmpty (b : BundleNo)
  | lpReq (b : BundleNo)
  | lpAck (b : BundleNo)
  | lpExit (b : BundleNo) (bad : BitVec 36)
  | creditReturnTimer (p : Port)
  -- causeway protocol (09)
  | cap (p : Port) (e : Env)
  | capack (p : Port)
  | capRepeatTimer (p : Port)
  | capTimeout (p : Port) (e : Env)
  | rd (p : Port) (q : Req) (e : Env)
  | wr (p : Port) (q : Req) (e : Env)
  | wrs (p : Port) (q : Req) (e : Env)
  | atomAdd (p : Port) (q : Req) (e : Env)
  | atomSwap (p : Port) (q : Req) (e : Env)
  | atomCas (p : Port) (q : Req) (e : Env)
  | atomDraw (p : Port) (q : Req) (e : Env)
  | dbell (p : Port) (q : Req) (e : Env)
  | mrd (way : Fin 2) (adr : Nat) (len : Nat)
  | mwr (way : Fin 2) (adr : Nat) (data : List Byte)
  | tsb (p : Port) (q : Req) (testOut : W64)
  | rcmp (p : Port) (tag : BitVec 14) (st : Status) (e : Env)
  | wcmp (p : Port) (tag : BitVec 14) (st : Status) (e : Env)
  | acmp (p : Port) (tag : BitVec 14) (st : Status) (e : Env)
  | payloadFlit (p : Port) (proto : W64) (payload : List Byte)
  | requestTimeout (isRead : Bool) (tag : BitVec 14) (e : Env)
  | streamRequestRelease (p : Port) (ostr : BitVec 8) (e : Env)
  -- lagoon, shoal, ferries (07)
  | fyStart (r : Region) (v : W32) (e : Env)
  | ferryContextTakeup (r : Region) (e : Env)
  | ferryReadIssue (r : Region) (id : Nat) (e : Env)
  | ferryContextDone (r : Region) (id : Nat) (e : Env)
  | stageBlock (r : Region) (slot : SlotNo) (pat : Nat) (coords : List Nat) (e : Env)
  | writeBack (r : Region) (slot : SlotNo) (pos pat : Nat) (e : Env)
  | scrubTick (r : Region) (e : Env)
  | lgClear (r : Region) (v : W64)
  -- array, chain and instances (04, 05, 06, 11)
  | counterDraw (r : Region) (slot : SlotNo) (grp : Nat) (remote : Option W64)
  | arrayStep (r : Region) (c : Cluster) (waited : Nat) (e : Env)
  | chunkEnd (r : Region) (c : Cluster) (waited : Nat)
  | promotionRow (r : Region) (c : Cluster) (e : Env)
  | drainComplete (r : Region) (c : Cluster)
  | tileAbort (r : Region) (c : Cluster) (e : Env)
  | vcPassStart (r : Region) (c : Cluster) (waited : Nat) (e : Env)
  | vcPassEnd (r : Region) (c : Cluster) (cc : Nat)
  | instanceDrained (r : Region) (slot : SlotNo) (far : Option FarEnd) (e : Env)
  | instanceFaulted (r : Region) (slot : SlotNo) (met : BitVec 4) (far : Option FarEnd) (lost : Bool) (e : Env)
  | preemptDisplace (r : Region) (named : Option Far) (e : Env)
  -- rings and records (11)
  | cmdRingDoorbell (r : Region) (n : RingNo) (v : W32) (e : Env)
  | cmdRingCfg (r : Region) (n : RingNo) (v : W32)
  | recordIssue (r : Region) (e : Env)
  | holdRelease (r : Region) (n : RingNo) (e : Env)
  | nop (r : Region) (e : Env)
  | bind (r : Region) (from_ : Option Far) (e : Env)
  | bindRelease (r : Region) (from_ : Option Far) (e : Env)
  | start (r : Region) (from_ : Option Far) (e : Env)
  | stop (r : Region) (from_ : Option Far) (e : Env)
  | resume (r : Region) (from_ : Option Far) (e : Env)
  | resetCounter (r : Region) (e : Env)
  | fence (r : Region)
  | writeFlag (r : Region)
  | signal (r : Region)
  | cmdFltCfg (r : Region) (v : W32)
  | cmdFltRd (r : Region) (v : W32)
  | cmdMboxBell (r : Region) (v : W64)
  -- power and thermal (12)
  | clusterStartSlot
  | clusterIdleTimeout (r : Region) (c : Cluster)
  | regionSlackTimeout (r : Region)
  | regionWake (r : Region)
  | ebbReq (e : Env)
  | ebbEntryProgress
  | offReq (told : Bool)
  | aoCmdWake
  | wakeTimerExpiry
  | portWakeRequest (p : Port)
  | wakeProgress (othersReady : Bool)
  | thermalSample (readings : List (Option Int)) (droops : List Nat)
  -- security and debug (13)
  | alarmSourceDetect (src : Fin 8) (e : Env)
  | peerAlarm (e : Env)
  | eraseSignal (e : Env)
  | lockZeroingDone (e : Env)
  | alarmNRelease
  | helperOverwrite (serial : W64)
  | newNonce
  | tokenGo (e : Env)
  | tokenForward (token : List Byte) (e : Env)
  | lowerEn (level : BitVec 2)
  | attGo (e : Env)
  | attestationReady (e : Env)
  | bottomTreeBuilt (e : Env)
  | packageAuth (reports : List (BitVec 3 × List Byte)) (e : Env)
  | attReadyTimeout (e : Env)
  | tapInstruction (n : TapInstr) (e : Env)
  | segmentShiftUnit (id : BitVec 3) (out : W64)
  -- lifetime records (14)
  | ltFloodCcExpiry
  | ltCtrlFlush
  | ltCtrlSnap
  | flushComplete (e : Env)
  -- registers, rails and clocks (00, 10, 14, 15)
  | readToClear (by_ : Initiator) (blk off : Nat) (wide : Bool) (e : Env)
  | registerWrite (by_ : Initiator) (blk off : Nat) (wide : Bool) (v : W64) (e : Env)
  | powerUp
  | powerLoss (ao bt : Bool)
  | refclkLoss
  | pllLockTimeout
  deriving DecidableEq, Repr

end Sys2Proof
end

