-- ==== Sys2Proof/WellFormed.lean ====
section
/-! DEFINITION. Well-formed commands: the sizes and ranges that the specification gives what a command
carries. A constructor not named here carries nothing that its types do not bound. -/

namespace Sys2Proof

/-- A request's LEN of 1 to 256 bytes (R295). -/
def wfReq (q : Req) : Bool := decide (1 ≤ q.len) && decide (q.len ≤ 256)

/-- The bytes lie inside one naturally aligned 256-byte block (R297). -/
def wfSpan (q : Req) : Bool := decide (q.addr.toNat % 256 + q.len ≤ 256)

/-- A WRS carries at most 8 bytes (R297). -/
def wfShort (q : Req) : Bool := decide (q.len ≤ 8)

/-- An ATOM or DBELL has LEN 7, which is 8 bytes (R297, R298). -/
def wfEight (q : Req) : Bool := q.len == 8

/-- A flit is 68 UI in full mode and 136 in narrows mode (R270). -/
def wfFlit (uis : Nat) : Bool := uis == 68 || uis == 136

/-- Two copies of a map message are 128 UI (R264). -/
def wfMap (uis : Nat) : Bool := uis == 128

/-- A payload flit carries 256 bytes (R293). -/
def wfPayload (p : List Byte) : Bool := p.length == 256

/-- An MRD or MWR has 64, 128, 192 or 256 bytes at a 64-byte-aligned address, inside one aligned
256-byte block (R310). -/
def wfStack (adr len : Nat) : Bool :=
  adr % 64 == 0 && len % 64 == 0 && decide (1 ≤ len) && decide (adr % 256 + len ≤ 256)

/-- A sample holds 64 sensor readings and 11 droop readings (R388, R439). -/
def wfSample (n m : Nat) : Bool := n == 64 && m == 11

/-- A register access names one of 256 blocks and an aligned offset in 64 KiB (R220, R221). -/
def wfAccess (blk off : Nat) (wide : Bool) : Bool :=
  decide (blk < 256) && decide (off < 65536) && off % (if wide then 8 else 4) == 0

/-- A TAP instruction: a halt domain of 72, a lagoon block and its 64 bytes (R376, R423). -/
def wfTap : TapInstr → Bool
  | .halt d | .release d => decide (d < 72)
  | .lagoonWrite b data _ _ => decide (b < 2 ^ 24) && data.length == 64
  | .lagoonRead b => decide (b < 2 ^ 24)
  | _ => true

/-- Well-formed commands. -/
def Instr.wf : Instr → Bool
  | .flitReceived _ f _ => wfFlit f.length
  | .mapMessageAccepted _ f _ => wfMap f.length
  | .rd _ q _ => wfReq q && wfSpan q
  | .wr _ q _ => wfReq q && wfSpan q
  | .wrs _ q _ => wfReq q && wfSpan q && wfShort q
  | .atomAdd _ q _ | .atomSwap _ q _ | .atomCas _ q _ | .atomDraw _ q _ | .dbell _ q _ =>
    wfEight q && wfSpan q
  | .mrd _ adr len => wfStack adr len
  | .mwr _ adr d => wfStack adr d.length
  | .payloadFlit _ _ p => wfPayload p
  | .thermalSample rs ds => wfSample rs.length ds.length
  | .readToClear _ b o w _ | .registerWrite _ b o w _ _ => wfAccess b o w
  | .tapInstruction i _ => wfTap i
  | _ => true

end Sys2Proof
end

