-- ==== Sys2Proof/Machine/Bits.lean ====
section
/-! DEFINITION. Bit fields, byte order, CRCs and the sparse byte memories, each written once. -/

namespace Sys2Proof.Machine

/-! ## Fields and bytes (R11) -/

/-- Field `[lo + w - 1 : lo]` of a number. -/
def field (x lo w : Nat) : Nat := x / 2 ^ lo % 2 ^ w

/-- A field's contribution to a register: the value cut to `w` bits, at bit `lo`. -/
def place (v lo w : Nat) : Nat := (v % 2 ^ w) * 2 ^ lo

/-- A Boolean as a one-bit field. -/
def bit (b : Bool) : Nat := if b then 1 else 0

/-- Bit `i` of a number. -/
def testBit (x i : Nat) : Bool := x / 2 ^ i % 2 == 1

/-- `x` with field `[lo + w - 1 : lo]` replaced by `v`. -/
def setField (x lo w v : Nat) : Nat :=
  x / 2 ^ (lo + w) * 2 ^ (lo + w) + place v lo w + x % 2 ^ lo

/-- Multi-byte values are stored little-endian (R11). -/
def bytesToNat : List Byte → Nat
  | [] => 0
  | b :: bs => b.toNat + 256 * bytesToNat bs

/-- `n` bytes of a value, little-endian (R11). -/
def natToBytes : Nat → Nat → List Byte
  | 0, _ => []
  | n + 1, v => BitVec.ofNat 8 v :: natToBytes n (v / 256)

/-- `n` bytes at offset `off` as a little-endian number. -/
def sub (bs : List Byte) (off n : Nat) : Nat := bytesToNat ((bs.drop off).take n)

/-- Value of a two's-complement field of `w` bits. -/
def signedOf (w x : Nat) : Int := if x % 2 ^ w < 2 ^ (w - 1) then (x % 2 ^ w : Nat) else (x % 2 ^ w : Nat) - (2 ^ w : Nat)

/-- Two's-complement code of an integer in `w` bits. -/
def unsignedOf (w : Nat) (x : Int) : Nat := (x % (2 ^ w : Nat)).toNat

/-- A count that stops at its largest value (R434). -/
def satAdd (w x y : Nat) : Nat := min (x + y) (2 ^ w - 1)

/-- Least whole number of `d`-sized parts that hold `n`. -/
def ceilDiv (n d : Nat) : Nat := (n + d - 1) / d

/-- First index below `n` that satisfies `p`. -/
def firstBelow (n : Nat) (p : Nat → Bool) : Option Nat := (List.range n).find? p

/-- Number of indices below `n` that satisfy `p`. -/
def countBelow (n : Nat) (p : Nat → Bool) : Nat := ((List.range n).filter p).length

/-- Number of ones among the low `n` bits. -/
def popCount (n x : Nat) : Nat := countBelow n (testBit x)

/-- `xs` with its `i`-th entry passed through `f`. -/
def modifyAt {α : Type} (xs : List α) (i : Nat) (f : α → α) : List α :=
  match xs, i with
  | [], _ => []
  | x :: xs, 0 => f x :: xs
  | x :: xs, i + 1 => x :: modifyAt xs i f

/-! ## CRCs -/

/-- One bit, most significant first, through the CRC-16 of R224 (polynomial 0x8BB7). -/
def crc16Bit (c : Nat) (b : Bool) : Nat :=
  let top := testBit c 15
  let c2 := c * 2 % 65536
  if top != b then c2 ^^^ 0x8BB7 else c2

/-- One byte, most significant bit first (R224). -/
def crc16Byte (c : Nat) (b : Byte) : Nat :=
  [7, 6, 5, 4, 3, 2, 1, 0].foldl (fun c i => crc16Bit c (testBit b.toNat i)) c

/-- CRC-16 of R224: initial value 0, no reflection, no final XOR. -/
def crc16 (bs : List Byte) : Nat := bs.foldl crc16Byte 0

/-- The block CRC of the lagoon: 64 data bytes, then the block number in 3 bytes (R224). -/
def lagoonCrc (data : List Byte) (blk : Nat) : Nat := crc16 (data ++ natToBytes 3 blk)

/-- The CRC of a 64-byte block of a memory stack: data, then stack address / 64 in 5 bytes (R310). -/
def stackCrc (data : List Byte) (adr : Nat) : Nat := crc16 (data ++ natToBytes 5 (adr / 64))

/-- One reflected step of CRC-32C (R273): polynomial 0x1EDC6F41, reflected 0x82F63B78. -/
def crc32cBit (c : Nat) (_ : Nat) : Nat :=
  if testBit c 0 then (c / 2) ^^^ 0x82F63B78 else c / 2

/-- One byte of CRC-32C (R273). -/
def crc32cByte (c : Nat) (b : Byte) : Nat :=
  (List.range 8).foldl crc32cBit (c ^^^ b.toNat)

/-- CRC-32C with initial value and final XOR of all ones (R273). -/
def crc32c (bs : List Byte) : Nat := (bs.foldl crc32cByte 0xFFFFFFFF) ^^^ 0xFFFFFFFF

/-- CRC-16 of the low 48 bits of a map message, as 6 bytes little-endian (R263). -/
def mapCrc (low48 : Nat) : Nat := crc16 (natToBytes 6 low48)

/-! ## Sparse byte memories

A memory is a list of address and byte pairs, addresses strictly rising, no entry equal to the zero
that an unlisted address reads as. -/

/-- A byte memory in canonical form. -/
abbrev Mem := List Host.Cell

/-- Addresses strictly rise from above `lo`, and no listed byte is zero. -/
def memWfFrom (lo : Nat) : Mem → Bool
  | [] => true
  | (a, b) :: m => decide (lo ≤ a) && (b != 0#8) && memWfFrom (a + 1) m

/-- The canonical form of a memory. -/
def memWf (m : Mem) : Bool := memWfFrom 0 m

/-- Read of one byte; an unlisted address reads as zero. -/
def memRead : Mem → Nat → Byte
  | [], _ => 0#8
  | (a, b) :: m, x => if x = a then b else memRead m x

/-- Write of one byte, keeping the canonical form. -/
def memWrite : Mem → Nat → Byte → Mem
  | [], x, v => if v = 0#8 then [] else [(x, v)]
  | (a, b) :: m, x, v =>
    if x < a then (if v = 0#8 then (a, b) :: m else (x, v) :: (a, b) :: m)
    else if x = a then (if v = 0#8 then m else (x, v) :: m)
    else (a, b) :: memWrite m x v

/-- `n` bytes from `a` upward. -/
def memReadN (m : Mem) : Nat → Nat → List Byte
  | _, 0 => []
  | a, n + 1 => memRead m a :: memReadN m (a + 1) n

/-- Bytes stored from `a` upward. -/
def memWriteN (m : Mem) (a : Nat) : List Byte → Mem
  | [] => m
  | b :: bs => memWriteN (memWrite m a b) (a + 1) bs

/-- A little-endian value of `n` bytes at `a`. -/
def memNat (m : Mem) (a n : Nat) : Nat := bytesToNat (memReadN m a n)

/-- The bytes of `[lo, lo + n)` dropped: they read as zero. -/
def memClear (m : Mem) (lo n : Nat) : Mem := m.filter fun c => decide (c.1 < lo) || decide (lo + n ≤ c.1)

/-! ## Sets of numbers in rising order -/

/-- Insertion into a rising list, once. -/
def setInsert (x : Nat) : List Nat → List Nat
  | [] => [x]
  | y :: ys => if x < y then x :: y :: ys else if x = y then y :: ys else y :: setInsert x ys

/-- Removal from a list. -/
def setErase (x : Nat) (ys : List Nat) : List Nat := ys.filter (· != x)

end Sys2Proof.Machine
end

