-- ==== Sys2Proof/Machine/Formats.lean ====
section
/-! DEFINITION. Number formats, exact values, rounding and conversions (02_number_formats). -/

namespace Sys2Proof.Machine

/-! ## Exact values -/

/-- An exact value: `(-1)^neg * mag * 2^exp`, an infinity, or NaN. A zero keeps its sign. -/
inductive XVal where
  | fin (neg : Bool) (mag : Nat) (exp : Int)
  | inf (neg : Bool)
  | nan
  deriving DecidableEq, Repr

/-- +0. -/
def XVal.zero : XVal := .fin false 0 0

/-- An integer as an exact value. -/
def XVal.ofInt (i : Int) : XVal := .fin (decide (i < 0)) i.natAbs 0

/-- 2^e. -/
def XVal.pow2 (e : Int) : XVal := .fin false 1 e

/-- Zero of either sign. -/
def XVal.isZero : XVal → Bool
  | .fin _ m _ => m == 0
  | _ => false

/-- NaN. -/
def XVal.isNan : XVal → Bool
  | .nan => true
  | _ => false

/-- Neither infinity nor NaN. -/
def XVal.isFinite : XVal → Bool
  | .fin .. => true
  | _ => false

/-- The sign; false for NaN. -/
def XVal.isNeg : XVal → Bool
  | .fin s _ _ => s
  | .inf s => s
  | .nan => false

/-- Sign reversed. -/
def XVal.negate : XVal → XVal
  | .fin s m e => .fin (!s) m e
  | .inf s => .inf (!s)
  | .nan => .nan

/-- ⌊log2⌋ of a nonzero magnitude `m * 2^e`. -/
def floorLog2 (m : Nat) (e : Int) : Int := (Nat.log2 m : Int) + e

/-- Exact product, with the IEEE 754 special cases of R63 and R97. -/
def XVal.mul : XVal → XVal → XVal
  | .nan, _ => .nan
  | _, .nan => .nan
  | .inf s, .inf t => .inf (s != t)
  | .inf s, .fin t m _ => if m = 0 then .nan else .inf (s != t)
  | .fin t m _, .inf s => if m = 0 then .nan else .inf (s != t)
  | .fin s m e, .fin t n f => .fin (s != t) (m * n) (e + f)

/-- Exact sum. `down` selects -0 for a zero sum of unlike signs (R176). -/
def XVal.add (down : Bool) : XVal → XVal → XVal
  | .nan, _ => .nan
  | _, .nan => .nan
  | .inf s, .inf t => if s = t then .inf s else .nan
  | .inf s, .fin .. => .inf s
  | .fin .., .inf s => .inf s
  | .fin s m e, .fin t n f =>
    let q := min e f
    let a : Int := (m * 2 ^ (e - q).toNat : Nat)
    let b : Int := (n * 2 ^ (f - q).toNat : Nat)
    let c := (if s then -a else a) + (if t then -b else b)
    if c = 0 then .fin (if s = t then s else down) 0 0 else .fin (decide (c < 0)) c.natAbs q

/-- Order of two finite or infinite values; equal zeros compare equal (R76). -/
def XVal.cmp : XVal → XVal → Option Ordering
  | .nan, _ => none
  | _, .nan => none
  | .inf s, .inf t => some (if s = t then .eq else if s then .lt else .gt)
  | .inf s, .fin .. => some (if s then .lt else .gt)
  | .fin .., .inf t => some (if t then .gt else .lt)
  | .fin s m e, .fin t n f =>
    let q := min e f
    let a : Int := (m * 2 ^ (e - q).toNat : Nat)
    let b : Int := (n * 2 ^ (f - q).toNat : Nat)
    some (compare (if s then -a else a) (if t then -b else b))

/-- `x ≥ y`, false when unordered. -/
def XVal.ge (x y : XVal) : Bool := x.cmp y == some .gt || x.cmp y == some .eq

/-- `x < y`, false when unordered (R76). -/
def XVal.lt (x y : XVal) : Bool := x.cmp y == some .lt

/-! ## Rounding (R68-R70) -/

/-- Rounding directions: the four of R70 and the rounding to odd of R68. -/
inductive Rnd where
  | ne | tz | up | down | odd
  deriving DecidableEq, Repr

/-- RM codes of a stage word (R164). -/
def Rnd.ofCode : Nat → Rnd
  | 1 => .tz
  | 2 => .up
  | 3 => .down
  | _ => .ne

/-- `m * 2^sh` rounded to a whole number in direction `r`. -/
def roundNat (r : Rnd) (neg : Bool) (m : Nat) (sh : Int) : Nat :=
  if 0 ≤ sh then m * 2 ^ sh.toNat
  else
    let k := (-sh).toNat
    let q := m / 2 ^ k
    let rem := m % 2 ^ k
    if rem = 0 then q
    else
      match r with
      | .tz => q
      | .up => if neg then q else q + 1
      | .down => if neg then q + 1 else q
      | .odd => if q % 2 = 0 then q + 1 else q
      | .ne =>
        if 2 * rem < 2 ^ k then q
        else if 2 * rem = 2 ^ k then (if q % 2 = 0 then q else q + 1)
        else q + 1

/-- A value rounded to `p` significant bits with unbounded exponent. -/
def XVal.roundSig (p : Nat) (r : Rnd) : XVal → XVal
  | .fin s m e =>
    if m = 0 then .fin s 0 0
    else
      let q := floorLog2 m e - (p - 1 : Nat)
      .fin s (roundNat r s m (e - q)) q
  | v => v

/-! ## Float formats (R45-R49) -/

/-- The format codes of R41. -/
inductive Fmt where
  | t8 | t8w | t16 | f32 | f32p | n4 | n8 | e8 | i32 | u32
  deriving DecidableEq, Repr

/-- The 4-bit format codes; 0xA-0xF are reserved (R41). -/
def Fmt.ofCode : Nat → Option Fmt
  | 0 => some .t8
  | 1 => some .t8w
  | 2 => some .t16
  | 3 => some .f32
  | 4 => some .f32p
  | 5 => some .n4
  | 6 => some .n8
  | 7 => some .e8
  | 8 => some .i32
  | 9 => some .u32
  | _ => none

/-- Code of a format (R41). -/
def Fmt.code : Fmt → Nat
  | .t8 => 0 | .t8w => 1 | .t16 => 2 | .f32 => 3 | .f32p => 4
  | .n4 => 5 | .n8 => 6 | .e8 => 7 | .i32 => 8 | .u32 => 9

/-- Bits of an element (R41). -/
def Fmt.width : Fmt → Nat
  | .t8 | .t8w | .n8 | .e8 => 8
  | .t16 => 16
  | .f32 | .i32 | .u32 => 32
  | .f32p => 64
  | .n4 => 4

/-- Fraction bits, exponent bits, bias, and whether the top exponent holds infinities. -/
structure FloatParam where
  frac : Nat
  ebits : Nat
  bias : Nat
  hasInf : Bool
  deriving DecidableEq, Repr

/-- The float layouts of R45-R49. -/
def Fmt.param : Fmt → Option FloatParam
  | .t8 => some ⟨3, 4, 8, false⟩
  | .t8w => some ⟨2, 5, 16, true⟩
  | .t16 => some ⟨9, 6, 32, true⟩
  | .f32 => some ⟨23, 8, 127, true⟩
  | _ => none

/-- Code of the canonical NaN: every bit below the sign set, but 0x7FC0_0000 in F32 (R46-R49). -/
def FloatParam.nanCode (p : FloatParam) : Nat :=
  if p.ebits = 8 then 0x7FC00000 else 2 ^ (p.frac + p.ebits) - 1

/-- Code of the largest finite magnitude. -/
def FloatParam.maxCode (p : FloatParam) : Nat :=
  if p.hasInf then (2 ^ p.ebits - 1) * 2 ^ p.frac - 1 else 2 ^ (p.frac + p.ebits) - 2

/-- Code of +infinity, or the NaN code in T8, which has none (R46). -/
def FloatParam.infCode (p : FloatParam) : Nat :=
  if p.hasInf then (2 ^ p.ebits - 1) * 2 ^ p.frac else p.nanCode

/-- Sign bit set on a code. -/
def FloatParam.signed (p : FloatParam) (neg : Bool) (c : Nat) : Nat :=
  c + (if neg then 2 ^ (p.frac + p.ebits) else 0)

/-- Value of a float code (R45, R47, R48, R49). -/
def FloatParam.decode (p : FloatParam) (c : Nat) : XVal :=
  let s := testBit c (p.frac + p.ebits)
  let e := field c p.frac p.ebits
  let f := field c 0 p.frac
  if e = 0 then .fin s f (1 - (p.bias : Int) - p.frac)
  else if p.hasInf && e == 2 ^ p.ebits - 1 then (if f = 0 then .inf s else .nan)
  else if !p.hasInf && e == 2 ^ p.ebits - 1 && f == 2 ^ p.frac - 1 then .nan
  else .fin s (2 ^ p.frac + f) ((e : Int) - p.bias - p.frac)

/-- A code that is subnormal: exponent field 0 and nonzero fraction (R66). -/
def FloatParam.isSub (p : FloatParam) (c : Nat) : Bool :=
  field c p.frac p.ebits == 0 && field c 0 p.frac != 0

/-- Result of rounding a finite value into a float format. -/
inductive Rounded where
  | code (c : Nat)
  | over (neg : Bool)
  deriving DecidableEq, Repr

/-- A finite value rounded into the format, subnormals kept; `over` when the rounded value, with
unbounded exponent range, exceeds the largest finite magnitude (R78). -/
def FloatParam.round (p : FloatParam) (r : Rnd) (neg : Bool) (m : Nat) (e : Int) : Rounded :=
  if m = 0 then .code (p.signed neg 0)
  else
    let emin : Int := 1 - (p.bias : Int)
    let q := max (floorLog2 m e) emin - p.frac
    let n := roundNat r neg m (e - q)
    let c := if n < 2 ^ p.frac then n
      else
        let up := decide (2 ^ (p.frac + 1) ≤ n)
        let n' := if up then n / 2 else n
        let q' := if up then q + 1 else q
        ((q' + p.frac + p.bias).toNat) * 2 ^ p.frac + (n' - 2 ^ p.frac)
    if p.maxCode < c then .over neg else .code (p.signed neg c)

/-- IEEE 754 overflow in direction `r` (R79, R173). Rounding to odd gives infinity (R68). -/
def FloatParam.ieeeOver (p : FloatParam) (r : Rnd) (neg : Bool) : Nat :=
  let toInf := match r with
    | .ne | .odd => true
    | .tz => false
    | .up => !neg
    | .down => neg
  p.signed neg (if toInf then p.infCode else p.maxCode)

/-- IEEE 754 rounding of an exact value into a format: overflow by direction, canonical NaN. -/
def FloatParam.encodeIeee (p : FloatParam) (r : Rnd) : XVal → Nat
  | .nan => p.nanCode
  | .inf s => if p.hasInf then p.signed s p.infCode else p.nanCode
  | .fin s m e => match p.round r s m e with
    | .code c => c
    | .over neg => p.ieeeOver r neg

/-- The F32 layout. -/
def pF32 : FloatParam := ⟨23, 8, 127, true⟩

/-- F32 code of an exact value, rounded to nearest even. -/
def f32Of (v : XVal) : Nat := pF32.encodeIeee .ne v

/-- Value of an F32 code. -/
def f32Val (c : Nat) : XVal := pF32.decode c

/-- The zero of a code's sign when FLUSH acts and the code is subnormal, and whether it acted (R66). -/
def FloatParam.flush (p : FloatParam) (on : Bool) (c : Nat) : Nat × Bool :=
  if on && p.isSub c then (p.signed (testBit c (p.frac + p.ebits)) 0, true) else (c, false)

/-! ## Element values (R43-R53) -/

/-- Value of an F32P element: hi + lo when hi is finite, hi alone otherwise (R50, R51). A zero lo leaves hi
and the sign of a zero hi: DESIGN CHOICE (log 125). -/
def f32pVal (c : Nat) : XVal :=
  let hi := f32Val (field c 0 32)
  let lo := f32Val (field c 32 32)
  if hi.isFinite then (if lo.isZero then hi else hi.add false lo) else hi

/-- Exact value of an element of any format (R474 step 1, R52, R53). -/
def Fmt.value (f : Fmt) (c : Nat) : XVal :=
  match f with
  | .t8 => (⟨3, 4, 8, false⟩ : FloatParam).decode c
  | .t8w => (⟨2, 5, 16, true⟩ : FloatParam).decode c
  | .t16 => (⟨9, 6, 32, true⟩ : FloatParam).decode c
  | .f32 => f32Val c
  | .f32p => f32pVal c
  | .n4 => XVal.ofInt (signedOf 4 c)
  | .n8 => XVal.ofInt (signedOf 8 c)
  | .e8 => if c % 256 = 255 then .nan else .pow2 ((c % 256 : Nat) - 127)
  | .i32 => XVal.ofInt (signedOf 32 c)
  | .u32 => XVal.ofInt (c % 2 ^ 32 : Nat)

/-- A float input read under FLUSH: a subnormal becomes zero of the same sign (R66). An F32P element is
taken by its value (log 10). -/
def Fmt.readFlush (f : Fmt) (on : Bool) (c : Nat) : Nat × Bool :=
  match f.param with
  | some p => p.flush on c
  | none =>
    if on && f = .f32p then
      match f32pVal c with
      | .fin s m e => if m ≠ 0 ∧ floorLog2 m e < -126 then (if s then 2 ^ 31 else 0, true) else (c, false)
      | _ => (c, false)
    else (c, false)

/-- A non-finite element: infinity or NaN, and in T8 its NaN codes (R84, R179). -/
def Fmt.isNonfinite (f : Fmt) (c : Nat) : Bool :=
  match f with
  | .t8 | .t8w | .t16 | .f32 => !(f.value c).isFinite
  | .f32p => !(f32Val (field c 0 32)).isFinite
  | _ => false

/-! ## Explicit conversion in the vector chain (R77-R82, R474) -/

/-- Code and flags of an operation. -/
structure Res where
  code : Nat
  range : Bool
  subflush : Bool
  deriving DecidableEq, Repr

/-- Into a float format (R79): saturates and sets RANGE outside strict mode; in strict mode a target
with an infinity overflows as IEEE 754 gives. -/
def cvtFloat (p : FloatParam) (strict : Bool) (r : Rnd) (flush : Bool) (v : XVal) : Res :=
  match v with
  | .nan => ⟨p.nanCode, false, false⟩
  | .inf s => if p.hasInf then ⟨p.signed s p.infCode, false, false⟩
      else ⟨p.signed s p.maxCode, true, false⟩
  | .fin s m e => match p.round r s m e with
    | .over neg => ⟨if strict && p.hasInf then p.ieeeOver r neg else p.signed neg p.maxCode, true, false⟩
    | .code c => let g := p.flush flush c; ⟨g.1, false, g.2⟩

/-- `v - w` for the lo part of a pair: exact, +0 when zero. -/
def loPart (v w : XVal) : XVal := v.add false w.negate

/-- Into F32P (R77, R82): hi as R79 gives, lo the rest rounded to odd; +0 when hi is zero, saturated
or not finite (R51). Rounding to odd prevails where it leaves lo above half an ulp of a tiny hi: DESIGN
CHOICE (log 124). -/
def cvtPair (flush : Bool) (v : XVal) : Res :=
  let h := cvtFloat pF32 false .ne false v
  let a := pF32.flush flush h.code
  let hv := f32Val a.1
  let lo := if h.range || !hv.isFinite || hv.isZero then 0
    else pF32.encodeIeee .odd (loPart v hv)
  let b := pF32.flush flush lo
  ⟨a.1 + b.1 * 2 ^ 32, h.range, a.2 || b.2⟩

/-- Into an integer format of range `lo` to `hi` (R80). -/
def cvtInt (w : Nat) (lo hi : Int) (r : Rnd) (v : XVal) : Res :=
  match v with
  | .nan => ⟨0, true, false⟩
  | .inf s => ⟨unsignedOf w (if s then lo else hi), true, false⟩
  | .fin s m e =>
    let n : Int := roundNat r s m e
    let i := if s then -n else n
    if i < lo then ⟨unsignedOf w lo, true, false⟩
    else if hi < i then ⟨unsignedOf w hi, true, false⟩
    else ⟨unsignedOf w i, false, false⟩

/-- Into E8 (R81): ⌊log2 |x|⌋ + 127. -/
def cvtE8 (v : XVal) : Res :=
  match v with
  | .nan => ⟨0xFF, false, false⟩
  | .inf _ => ⟨0xFE, true, false⟩
  | .fin _ m e =>
    if m = 0 then ⟨0, true, false⟩
    else
      let l := floorLog2 m e
      if l < -127 then ⟨0, true, false⟩
      else if 127 < l then ⟨0xFE, true, false⟩
      else ⟨(l + 127).toNat, false, false⟩

/-- An explicit convert (R474). The direction `r` acts only on a convert from F32 in a strict program
(R70, R176); FLUSH acts on float inputs and results outside strict mode (R66, R67). -/
def cvt (src dst : Fmt) (strict : Bool) (r : Rnd) (flush : Bool) (c : Nat) : Res :=
  let r' := if strict && src = .f32 then r else .ne
  let on := flush && !strict
  let i := src.readFlush on c
  let v := src.value i.1
  let ieee := strict && src = .f32
  let out := match dst with
    | .t8 => cvtFloat ⟨3, 4, 8, false⟩ ieee r' on v
    | .t8w => cvtFloat ⟨2, 5, 16, true⟩ ieee r' on v
    | .t16 => cvtFloat ⟨9, 6, 32, true⟩ ieee r' on v
    | .f32 => cvtFloat pF32 ieee r' on v
    | .f32p => cvtPair on v
    | .n4 => cvtInt 4 (-8) 7 r' v
    | .n8 => cvtInt 8 (-128) 127 r' v
    | .i32 => cvtInt 32 (-2147483648) 2147483647 r' v
    | .u32 => cvtInt 32 0 4294967295 r' v
    | .e8 => cvtE8 v
  { out with subflush := out.subflush || i.2 }

/-! ## Epilogue conversion (R83, R84) -/

/-- A value into the output format, to nearest even; never saturates, never sets RANGE (R83). FLUSH
acts on the result (R66). lo of a pair is rounded to odd in STRICT mode too, and beside a tiny hi: DESIGN
CHOICE (log 124, 127). -/
def epiConvert (f : Fmt) (flush : Bool) (v : XVal) : Res :=
  match f.param with
  | some p =>
    let c := p.encodeIeee .ne v
    let c := if p.hasInf then c else if c % 2 ^ (p.frac + p.ebits) = p.nanCode then p.nanCode else c
    let g := p.flush flush c
    ⟨g.1, false, g.2⟩
  | none =>
    -- F32P: hi to nearest even, lo the rest to odd, +0 beside a zero or non-finite hi (R69, R84, R109)
    let a := pF32.flush flush (f32Of v)
    let hv := f32Val a.1
    let lo := if !hv.isFinite || hv.isZero then 0 else pF32.encodeIeee .odd (loPart v hv)
    let b := pF32.flush flush lo
    ⟨a.1 + b.1 * 2 ^ 32, false, a.2 || b.2⟩

/-! ## Float arithmetic of the vector chain (R173, R176-R178) -/

/-- An operation's exact result rounded into a format, FLUSH on the result. -/
def arith (p : FloatParam) (r : Rnd) (flush : Bool) (v : XVal) : Nat × Bool :=
  p.flush flush (p.encodeIeee r v)

/-- Whole-number square root by bits, from bit `k` down. -/
def isqrtFrom (x : Nat) : Nat → Nat → Nat
  | 0, acc => acc
  | k + 1, acc =>
    let t := acc + 2 ^ k
    isqrtFrom x k (if t * t ≤ x then t else acc)

/-- Quotient as a value that rounds like the exact one: 64 quotient bits and a sticky bit (R178). -/
def XVal.div : XVal → XVal → XVal
  | .nan, _ => .nan
  | _, .nan => .nan
  | .inf _, .inf _ => .nan
  | .inf s, .fin t _ _ => .inf (s != t)
  | .fin s _ _, .inf t => .fin (s != t) 0 0
  | .fin s m e, .fin t n f =>
    if n = 0 then (if m = 0 then .nan else .inf (s != t))
    else if m = 0 then .fin (s != t) 0 0
    else
      let k := Nat.log2 n + 64
      let q := m * 2 ^ k / n
      let sticky := if m * 2 ^ k % n = 0 then 0 else 1
      .fin (s != t) (2 * q + sticky) (e - f - k - 1)

/-- Square root as a value that rounds like the exact one (R178). -/
def XVal.sqrt : XVal → XVal
  | .nan => .nan
  | .inf s => if s then .nan else .inf false
  | .fin s m e =>
    if m = 0 then .fin s 0 0
    else if s then .nan
    else
      let k := 128 + (e % 2).toNat
      let x := m * 2 ^ k
      let q := isqrtFrom x (Nat.log2 x / 2 + 1) 0
      let sticky := if q * q = x then 0 else 1
      .fin false (2 * q + sticky) ((e - k) / 2 - 1)

/-- Max of R75: a NaN operand is ignored, max(+0, -0) is +0. -/
def XVal.maxIsLeft (x y : XVal) : Bool :=
  if x.isNan then false else if y.isNan then true
  else match x.cmp y with
    | some .gt => true
    | some .lt => false
    | _ => !x.isNeg

/-- Min of R75: min(+0, -0) is -0. -/
def XVal.minIsLeft (x y : XVal) : Bool :=
  if x.isNan then false else if y.isNan then true
  else match x.cmp y with
    | some .lt => true
    | some .gt => false
    | _ => x.isNeg

/-! ## Activation tables (R129, R130) -/

/-- One segment record of an activation table, as F32 codes (R130). -/
structure Seg where
  l : Nat
  o : Nat
  c0 : Nat
  c1 : Nat
  c2 : Nat
  c3 : Nat
  deriving DecidableEq, Repr, Inhabited

/-- An activation table (R130). -/
structure ActTable where
  n : Nat
  posInf : Nat
  negInf : Nat
  segs : List Seg
  deriving DecidableEq, Repr, Inhabited

/-- F32 fused multiply-add on codes, to nearest even (R110, R129). -/
def f32Fma (a b c : Nat) : Nat := f32Of (((f32Val a).mul (f32Val b)).add false (f32Val c))

/-- The segment of R129: the largest i below N with i = 0 or x ≥ L[i]. -/
def ActTable.segment (t : ActTable) (x : XVal) : Seg :=
  ((t.segs.take t.n).tail.foldl (fun s g => if x.ge (f32Val g.l) then g else s)
    (t.segs.headD ⟨0, 0, 0, 0, 0, 0⟩))

/-- Evaluation of R129 at an exact input; an F32 code. -/
def ActTable.eval (t : ActTable) (x : XVal) : Nat :=
  match x with
  | .nan => pF32.nanCode
  | .inf s => if s then t.negInf else t.posInf
  | x =>
    let g := t.segment x
    let u := f32Of (x.add false (f32Val g.o).negate)
    f32Fma (f32Fma (f32Fma g.c3 u g.c2) u g.c1) u g.c0

end Sys2Proof.Machine
end

