-- ==== Sys2Proof/Machine/Accum.lean ====
section
/-! DEFINITION. Products, groups, chunks, totals and strict chains (03_accumulation). -/

namespace Sys2Proof.Machine

/-! ## Internal formats (R54-R57) -/

/-- The class field of R57. -/
inductive Cls where
  | fin | inf | nan
  deriving DecidableEq, Repr

/-- A C48, D48 or T80 value: class, sign, exponent and significand with its explicit leading bit. -/
structure IVal where
  cls : Cls
  neg : Bool
  exp : Int
  sig : Nat
  deriving DecidableEq, Repr

/-- The internal zero: every field 0 (R55). -/
def IVal.zero : IVal := ⟨.fin, false, 0, 0⟩

/-- An exact value rounded into an internal format of `p` significant bits (R54, R68, R92). No
internal format holds -0 (R55). -/
def IVal.ofX (p : Nat) (r : Rnd) (v : XVal) : IVal :=
  match v with
  | .nan => ⟨.nan, false, 0, 0⟩
  | .inf s => ⟨.inf, s, 0, 0⟩
  | .fin s m e =>
    if m = 0 then IVal.zero
    else
      let q := floorLog2 m e - (p - 1 : Nat)
      let n := roundNat r s m (e - q)
      if 2 ^ p ≤ n then ⟨.fin, s, q + p, n / 2⟩ else ⟨.fin, s, q + (p - 1 : Nat), n⟩

/-- Value of an internal format of `p` significant bits (R54). -/
def IVal.toX (p : Nat) (v : IVal) : XVal :=
  match v.cls with
  | .nan => .nan
  | .inf => .inf v.neg
  | .fin => .fin v.neg v.sig (v.exp - (p - 1 : Nat))

/-- Sum of two internal values rounded to nearest even into `p` bits (R92, R94, R98, R101). -/
def IVal.addRne (p pb : Nat) (a b : IVal) : IVal :=
  IVal.ofX p .ne ((a.toX p).add false (b.toX pb))

/-- The 2-bit class code (R57). -/
def Cls.code : Cls → Nat
  | .fin => 0 | .inf => 1 | .nan => 2

/-- The 16-byte record of a T80, C48 or D48 value, as a 128-bit number (R56, R57). -/
def IVal.record (v : IVal) : Nat :=
  match v.cls with
  | .nan => place 2 126 2
  | .inf => place 1 126 2 + place (bit v.neg) 125 1
  | .fin => place (bit v.neg) 125 1 + place (unsignedOf 16 v.exp) 96 16 + place v.sig 0 80

/-- A record of R56 read back. -/
def IVal.ofRecord (x : Nat) : IVal :=
  match field x 126 2 with
  | 0 => ⟨.fin, testBit x 125, signedOf 16 (field x 96 16), field x 0 80⟩
  | 1 => ⟨.inf, testBit x 125, 0, 0⟩
  | _ => ⟨.nan, false, 0, 0⟩

/-! ## Integer weights (R58-R61) -/

/-- Scale-and-zero-point expansion: the exact value q - z (R59). -/
def expandZp (f : Fmt) (q z : Nat) : XVal :=
  let w := f.width
  XVal.ofInt (signedOf w q - signedOf w z)

/-- Table of output channel `n`: min(⌊n / G⌋, T - 1) (R61). -/
def tableIndex (t g n : Nat) : Nat := min (n / g) (t - 1)

/-! ## Products (R88, R89, R97) -/

/-- The exponent that a block scale adds; `none` for the reserved code 0xFF (R53, R65). -/
def blockScaleExp (e : Nat) : Option Int := if e % 256 = 255 then none else some ((e % 256 : Nat) - 127)

/-- The exact product, scaled by the two block scales (R88, R89). A scale of 0xFF makes it NaN (R53). -/
def scaledProduct (a b : XVal) (sa sb : Option Nat) : XVal :=
  let ex : Option Nat → Option Int := fun o => match o with
    | none => some 0
    | some e => blockScaleExp e
  match ex sa, ex sb with
  | some x, some y =>
    match a.mul b with
    | .fin s m e => .fin s m (e + x + y)
    | v => v
  | _, _ => .nan

/-! ## Groups (R90, R91, R98) -/

/-- The group window: class, 64-bit sum W and alignment exponent G (R54, R91). -/
structure Window where
  cls : Cls
  neg : Bool
  w : Int
  g : Int
  deriving DecidableEq, Repr

/-- ⌊log2⌋ of the largest nonzero finite product, `none` when there is none (R91 steps 1 and 2). -/
def groupExp (ps : List XVal) : Option Int :=
  ps.foldl (fun g p => match p with
    | .fin _ m e => if m = 0 then g else
        let l := floorLog2 m e
        some (match g with | none => l | some x => max x l)
    | _ => g) none

/-- Contribution of one finite product to W: its magnitude truncated below 2^(G-56) (R91 step 3). -/
def groupTerm (g : Int) : XVal → Int
  | .fin s m e =>
    let t : Int := (roundNat .tz s m (e + 56 - g) : Nat)
    if s then -t else t
  | _ => 0

/-- The group value of up to 32 products (R91, R98). Products that cancel give the internal zero, every field
of which is 0 (R55). -/
def groupWindow (ps : List XVal) : Window :=
  let hasNan := ps.any XVal.isNan
  let pinf := ps.any (· == .inf false)
  let ninf := ps.any (· == .inf true)
  if hasNan || (pinf && ninf) then ⟨.nan, false, 0, 0⟩
  else if pinf then ⟨.inf, false, 0, 0⟩
  else if ninf then ⟨.inf, true, 0, 0⟩
  else match groupExp ps with
    | none => ⟨.fin, false, 0, 0⟩
    | some g =>
      let w := (ps.map (groupTerm g)).foldl (· + ·) 0
      ⟨.fin, false, w, if w = 0 then 0 else g⟩

/-- Value of a group window, W × 2^(G-56) (R54). -/
def Window.toX (x : Window) : XVal :=
  match x.cls with
  | .nan => .nan
  | .inf => .inf x.neg
  | .fin => .fin (decide (x.w < 0)) x.w.natAbs (x.g - 56)

/-- The 16-byte dump record of a group window (R56). The sign of an infinity stands in bit 125: DESIGN CHOICE
(log 126). -/
def Window.record (x : Window) : Nat :=
  match x.cls with
  | .nan => place 2 126 2
  | .inf => place 1 126 2 + place (bit x.neg) 125 1
  | .fin => place (unsignedOf 16 x.g) 96 16 + place (unsignedOf 64 x.w) 0 64

/-- One group added into the chunk register (R92). -/
def chunkAdd (c : IVal) (ps : List XVal) : IVal :=
  IVal.ofX 48 .ne ((c.toX 48).add false (groupWindow ps).toX)

/-- One chunk promoted into the total (R94). -/
def totalAdd (t c : IVal) : IVal := t.addRne 80 48 c

/-- One chain fold of two T80 totals (R101). -/
def chainFold (running t : IVal) : IVal := running.addRne 80 80 t

/-! ## Slices (R105-R107) -/

/-- Slice `i` (1 to 3) of an F32 operand (R105); a non-finite operand is slice 1 alone (R107). -/
def slice (i : Nat) (x : XVal) : XVal :=
  match x with
  | .fin s m e =>
    let x0 : XVal := .fin s m e
    let x1 := x0.roundSig 10 .ne
    let r1 := x0.add false x1.negate
    let x2 := r1.roundSig 10 .ne
    match i with
    | 1 => x1
    | 2 => x2
    | _ => r1.add false x2.negate
  | v => if i = 1 then v else .zero

/-- The product of slices `i` and `j`: pairs other than (1,1) with a non-finite operand give zero (R107). -/
def sliceProduct (i j : Nat) (a b : XVal) (sa sb : Option Nat) : XVal :=
  if (i, j) ≠ (1, 1) ∧ !(a.isFinite && b.isFinite) then .zero
  else scaledProduct (slice i a) (slice j b) sa sb

/-! ## Numeric modes (R85, R106) -/

/-- The numeric modes of R85. -/
inductive NumMode where
  | standard | f32native | slice1 | slice2 | slice3 | strict
  deriving DecidableEq, Repr

/-- The 3-bit codes of R85; 0b110 and 0b111 are reserved. -/
def NumMode.ofCode : Nat → Option NumMode
  | 0 => some .standard
  | 1 => some .f32native
  | 2 => some .slice1
  | 3 => some .slice2
  | 4 => some .slice3
  | 5 => some .strict
  | _ => none

/-- Slice pairs of a mode, in table order; one pass outside slice modes (R99, R106). -/
def NumMode.pairs : NumMode → List (Nat × Nat)
  | .slice2 => [(1, 1), (1, 2), (2, 1)]
  | .slice3 => [(1, 1), (1, 2), (2, 1), (1, 3), (2, 2), (3, 1)]
  | _ => [(1, 1)]

/-- Whether the mode works on slices. -/
def NumMode.isSlice : NumMode → Bool
  | .slice1 | .slice2 | .slice3 => true
  | _ => false

/-- One product in a mode, for slice pair `pr` (R88, R89, R106, R107). -/
def modeProduct (md : NumMode) (pr : Nat × Nat) (a b : XVal) (sa sb : Option Nat) : XVal :=
  if md.isSlice then sliceProduct pr.1 pr.2 a b sa sb else scaledProduct a b sa sb

/-- K padded to whole groups (R100, R119). -/
def kPad (k : Nat) : Nat := 32 * ceilDiv k 32

/-- S of R100: steps per chain position. -/
def sliceLen (kpad l : Nat) : Nat := 32 * ceilDiv kpad (32 * l)

/-- First step of chain position `j` (R100). -/
def sliceStart (kpad l j : Nat) : Nat := min (j * sliceLen kpad l) kpad

/-- One past the last step of chain position `j` (R100). -/
def sliceEnd (kpad l j : Nat) : Nat := min ((j + 1) * sliceLen kpad l) kpad

/-- Products accumulated into each total (R96). -/
def productCount (md : NumMode) (kpad : Nat) : Nat :=
  match md with
  | .slice2 => 3 * kpad
  | .slice3 => 6 * kpad
  | _ => kpad

/-- LONGSUM: more than 2^24 products, never in STRICT (R96). -/
def longSum (md : NumMode) (kpad : Nat) : Bool :=
  md != .strict && decide (2 ^ 24 < productCount md kpad)

/-! ## Strict mode (R110) -/

/-- One binary32 fused multiply-add of the strict chain (R110). -/
def strictStep (acc a b : Nat) : Nat := f32Fma a b acc

/-! ## The order of R99, over whole operand rows

These give one position's total from its products; the array reaches the same total step by step. -/

/-- The first `n` entries and the rest. -/
def chunksOf {α : Type} (n : Nat) : Nat → List α → List (List α)
  | 0, _ => []
  | fuel + 1, xs => if xs.isEmpty then [] else xs.take n :: chunksOf n fuel (xs.drop n)

/-- C48 of one chunk of products, group by group (R92). -/
def chunkOf (ps : List XVal) : IVal := (chunksOf 32 ps.length ps).foldl chunkAdd IVal.zero

/-- T80 of products, chunk by chunk (R94, R99). -/
def totalFrom (t : IVal) (ps : List XVal) : IVal :=
  ((chunksOf 4096 ps.length ps).map chunkOf).foldl totalAdd t

end Sys2Proof.Machine
end

