-- ==== Sys2Proof/Machine/FerryCtx.lean ====
section
/-! DEFINITION. The layout of a ferry context and the addresses it names (07, R240-R243). -/

namespace Sys2Proof.Machine

/-- A ferry context's fields (R240). -/
structure FerryCtx where
  src : Nat
  dst : Nat
  srcRs : Nat
  dstRs : Nat
  srcPs : Nat
  dstPs : Nat
  rows : Nat
  cols : Nat
  planes : Nat
  padCols : Nat
  padRows : Nat
  recd : Nat
  cur : Nat
  mcMask : Nat
  mc : Nat
  tags : Nat
  prio : Nat
  op : Nat
  fmt : Nat
  trans : Bool
  flush : Bool
  recRel : Bool
  nextEn : Bool
  next : Nat
  state : Nat
  cause : Nat
  rsvd : Nat
  deriving DecidableEq, Repr

/-- A 512-bit context taken apart (R240). REC holds bits [55:6] of the record's address. -/
def FerryCtx.ofNat (x : Nat) : FerryCtx :=
  { src := field x 456 56, dst := field x 400 56, srcRs := field x 360 40, dstRs := field x 320 40,
    srcPs := field x 280 40, dstPs := field x 240 40, rows := field x 216 24, cols := field x 192 24,
    planes := field x 176 16, padCols := field x 160 16, padRows := field x 144 16,
    recd := field x 94 50, cur := field x 62 32, mcMask := field x 54 8, mc := field x 52 2,
    tags := field x 44 8, prio := field x 42 2, op := field x 40 2, fmt := field x 36 4,
    trans := testBit x 35, flush := testBit x 34, recRel := testBit x 33, nextEn := testBit x 32,
    next := field x 14 18, state := field x 10 4, cause := field x 6 4, rsvd := field x 0 6 }

/-- A context as its 512 bits (R240). -/
def FerryCtx.toNat (c : FerryCtx) : Nat :=
  place c.src 456 56 + place c.dst 400 56 + place c.srcRs 360 40 + place c.dstRs 320 40 +
    place c.srcPs 280 40 + place c.dstPs 240 40 + place c.rows 216 24 + place c.cols 192 24 +
    place c.planes 176 16 + place c.padCols 160 16 + place c.padRows 144 16 + place c.recd 94 50 +
    place c.cur 62 32 + place c.mcMask 54 8 + place c.mc 52 2 + place c.tags 44 8 + place c.prio 42 2 +
    place c.op 40 2 + place c.fmt 36 4 + place (bit c.trans) 35 1 + place (bit c.flush) 34 1 +
    place (bit c.recRel) 33 1 + place (bit c.nextEn) 32 1 + place c.next 14 18 + place c.state 10 4 +
    place c.cause 6 4 + place c.rsvd 0 6

/-- Address of the record that REC names: bits [55:6] (R240). -/
def FerryCtx.recAddr (c : FerryCtx) : Nat := c.recd * 64

/-- A context that breaks the format rules of R240 and R242: a reserved code, a nonzero reserved
field, more than 2^32 - 1 rows, or ADD in a format other than T16 and F32. -/
def FerryCtx.badFormat (c : FerryCtx) : Bool :=
  (Fmt.ofCode c.fmt).isNone || c.mc == 3 || c.op == 3 || c.rsvd != 0 ||
    decide (2 ^ 32 - 1 < c.rows * c.planes) || decide (3 < c.state) || decide (8 < c.cause) ||
    (c.op == 1 && c.fmt != 2 && c.fmt != 3)

/-- Bytes before column `x` in a row of format `f` (R241, R43). -/
def colBytes (f : Fmt) (x : Nat) : Nat := x * f.width / 8

/-- Bytes of a row of `n` elements; an N4 row ends on a whole byte (R43, R241). -/
def rowBytes (f : Fmt) (n : Nat) : Nat := ceilDiv (n * f.width) 8

/-- Elements of a destination row and rows of a destination plane, before padding (R242). -/
def FerryCtx.dstCols (c : FerryCtx) : Nat := if c.trans then c.rows else c.cols
def FerryCtx.dstRows (c : FerryCtx) : Nat := if c.trans then c.cols else c.rows

/-- Source address of the row `i` of plane `p` (R241). -/
def FerryCtx.srcRow (c : FerryCtx) (p i : Nat) : Nat := (c.src + p * c.srcPs + i * c.srcRs) % 2 ^ 56

/-- Destination address of row `i` of plane `p` (R241). -/
def FerryCtx.dstRow (c : FerryCtx) (p i : Nat) : Nat := (c.dst + p * c.dstPs + i * c.dstRs) % 2 ^ 56

/-- Elements of format `f` packed into bytes, an odd N4 row filled with 0 (R43). -/
def packElems (f : Fmt) (es : List Nat) : List Byte :=
  let n := rowBytes f es.length
  natToBytes n (es.foldr (fun e acc => acc * 2 ^ f.width + e % 2 ^ f.width) 0)

/-- `n` elements of format `f` unpacked from bytes (R43). -/
def unpackElems (f : Fmt) (n : Nat) (bs : List Byte) : List Nat :=
  let x := bytesToNat bs
  (List.range n).map fun i => field x (i * f.width) f.width

end Sys2Proof.Machine
end

