-- ==== Sys2Proof/Machine/Hash.lean ====
section
/-! DEFINITION. SHA-256, HMAC-SHA-256 and the verification of HSS signatures, as R397, R399 and R413 name them:
FIPS 180-4, RFC 2104 and RFC 8554 within the sets of R399 (log 150). -/

namespace Sys2Proof.Machine

/-! ## SHA-256 (R397) -/

/-- A value as `n` bytes, most significant first. -/
def beBytes (n v : Nat) : List Byte := (natToBytes n v).reverse

/-- Bytes as a value, most significant first. -/
def beNat (bs : List Byte) : Nat := bytesToNat bs.reverse

/-- Least `x` with `x ^ p` beyond `n`, less one: the whole part of a root, found from a power of two down. -/
def rootFrom (p n : Nat) : Nat → Nat → Nat
  | 0, acc => acc
  | b + 1, acc => rootFrom p n b (if (acc + 2 ^ b) ^ p ≤ n then acc + 2 ^ b else acc)

/-- The first 64 primes. -/
def primes : List Nat :=
  [2, 3, 5, 7, 11, 13, 17, 19, 23, 29, 31, 37, 41, 43, 47, 53, 59, 61, 67, 71, 73, 79, 83, 89, 97, 101, 103, 107,
   109, 113, 127, 131] ++
  [137, 139, 149, 151, 157, 163, 167, 173, 179, 181, 191, 193, 197, 199, 211, 223, 227, 229, 233, 239, 241, 251, 257,
   263, 269, 271, 277, 281, 283, 293, 307, 311]

/-- Round constants: 32 bits of the fraction of the cube roots of the primes. -/
def shaK : List W32 := primes.map fun p => BitVec.ofNat 32 (rootFrom 3 (p * 2 ^ 96) 36 0)

/-- Initial hash words: 32 bits of the fraction of the square roots of the first eight primes. -/
def shaInit : List W32 := (primes.take 8).map fun p => BitVec.ofNat 32 (rootFrom 2 (p * 2 ^ 64) 37 0)

/-- The next word of the message schedule from the sixteen before it, newest first. -/
def shaNext (ws : List W32) : W32 :=
  let w := fun i => ws.getD (i - 1) 0
  let s0 := (w 15).rotateRight 7 ^^^ (w 15).rotateRight 18 ^^^ (w 15) >>> 3
  let s1 := (w 2).rotateRight 17 ^^^ (w 2).rotateRight 19 ^^^ (w 2) >>> 10
  w 16 + s0 + w 7 + s1

/-- The message schedule, newest first. -/
def shaSchedule : Nat → List W32 → List W32
  | 0, ws => ws
  | n + 1, ws => shaSchedule n (shaNext ws :: ws)

/-- One round on the working variables a to h. -/
def shaRound (v : List W32) (kw : W32 × W32) : List W32 :=
  match v with
  | [a, b, c, d, e, f, g, h] =>
    let s1 := e.rotateRight 6 ^^^ e.rotateRight 11 ^^^ e.rotateRight 25
    let ch := (e &&& f) ^^^ (~~~e &&& g)
    let t1 := h + s1 + ch + kw.1 + kw.2
    let s0 := a.rotateRight 2 ^^^ a.rotateRight 13 ^^^ a.rotateRight 22
    let maj := (a &&& b) ^^^ (a &&& c) ^^^ (b &&& c)
    [t1 + (s0 + maj), a, b, c, d + t1, e, f, g]
  | _ => v

/-- The first `n` blocks of `size` bytes of a byte string. -/
def blocksOf (size : Nat) : Nat → List Byte → List (List Byte)
  | 0, _ => []
  | n + 1, bs => bs.take size :: blocksOf size n (bs.drop size)

/-- One block of 64 bytes compressed into the hash words. -/
def shaBlock (h : List W32) (block : List Byte) : List W32 :=
  let m := (blocksOf 4 16 block).map fun x => BitVec.ofNat 32 (beNat x)
  let w := (shaSchedule 48 m.reverse).reverse
  ((shaK.zip w).foldl shaRound h).zipWith (· + ·) h

/-- The padded message: a one bit, zeros, and the length in bits. -/
def shaPad (bs : List Byte) : List Byte :=
  bs ++ 0x80#8 :: List.replicate ((119 - bs.length % 64) % 64) 0#8 ++ beBytes 8 (8 * bs.length)

/-- SHA-256 of a byte string, 32 bytes (R333, R397). -/
def sha256 (bs : List Byte) : List Byte :=
  let p := shaPad bs
  ((blocksOf 64 (p.length / 64) p).foldl shaBlock shaInit).flatMap fun w => beBytes 4 w.toNat

/-- HMAC-SHA-256 of a message (R413). -/
def hmacSha256 (key msg : List Byte) : List Byte :=
  let short := if 64 < key.length then sha256 key else key
  let k := short ++ List.replicate (64 - short.length) 0#8
  sha256 (k.map (· ^^^ 0x5C#8) ++ sha256 (k.map (· ^^^ 0x36#8) ++ msg))

/-! ## LMOTS, LMS and HSS verification (R399) -/

/-- Parameters of an LMOTS type of R399: Winternitz width, digits of the digest, and left shift of the
checksum. -/
structure OtsType where
  w : Nat
  p : Nat
  ls : Nat
  deriving DecidableEq, Repr

/-- LMOTS_SHA256_N32_W4 and _W8; none for another code (R399). -/
def otsType : Nat → Option OtsType
  | 3 => some ⟨4, 67, 4⟩
  | 4 => some ⟨8, 34, 0⟩
  | _ => none

/-- Height of LMS_SHA256_M32_H5, _H10, _H15 and _H20; none for another code (R399). -/
def lmsHeight : Nat → Option Nat
  | 5 => some 5
  | 6 => some 10
  | 7 => some 15
  | 8 => some 20
  | _ => none

/-- Bytes `[off, off + n)` of a byte string. -/
def cutBytes (bs : List Byte) (off n : Nat) : List Byte := (bs.drop off).take n

/-- Digit `i` of a byte string in digits of `w` bits, most significant first. -/
def coef (s : List Byte) (i w : Nat) : Nat :=
  (s.getD (i * w / 8) 0).toNat / 2 ^ (8 - (w * (i % (8 / w)) + w)) % 2 ^ w

/-- The checksum of a digest in digits of `w` bits. -/
def otsChecksum (t : OtsType) (q : List Byte) : Nat :=
  ((List.range (256 / t.w)).foldl (fun n i => n + (2 ^ t.w - 1 - coef q i t.w)) 0) * 2 ^ t.ls

/-- A hash chain carried from digit value `j` for `n` steps. -/
def otsChain (head : List Byte) : Nat → Nat → List Byte → List Byte
  | 0, _, y => y
  | n + 1, j, y => otsChain head n (j + 1) (sha256 (head ++ beBytes 1 j ++ y))

/-- The one-time public key that a signature C, y yields for a message, at leaf `q` of the tree `tid`. -/
def otsKey (t : OtsType) (tid : List Byte) (q : Nat) (c y msg : List Byte) : List Byte :=
  let pre := tid ++ beBytes 4 q
  let d := sha256 (pre ++ beBytes 2 0x8181 ++ c ++ msg)
  let dc := d ++ beBytes 2 (otsChecksum t d)
  let z := (List.range t.p).flatMap fun i =>
    let a := coef dc i t.w
    otsChain (pre ++ beBytes 2 i) (2 ^ t.w - 1 - a) a (cutBytes y (32 * i) 32)
  sha256 (pre ++ beBytes 2 0x8080 ++ z)

/-- The root that a leaf's value and its authentication path lead to, from node `n`. -/
def lmsRoot (tid : List Byte) (path : List Byte) : Nat → Nat → Nat → List Byte → List Byte
  | 0, _, _, v => v
  | h + 1, i, n, v =>
    let sib := cutBytes path (32 * i) 32
    let pre := tid ++ beBytes 4 (n / 2) ++ beBytes 2 0x8383
    lmsRoot tid path h (i + 1) (n / 2) (sha256 (pre ++ if n % 2 = 1 then sib ++ v else v ++ sib))

/-- Bytes of an LMS signature of the types of a public key; none for types outside R399. -/
def lmsSigLen (pub : List Byte) : Option Nat :=
  match lmsHeight (beNat (cutBytes pub 0 4)), otsType (beNat (cutBytes pub 4 4)) with
  | some h, some t => some (12 + 32 + 32 * t.p + 32 * h)
  | _, _ => none

/-- An LMS signature verifies under a public key of 56 bytes. -/
def lmsVerify (pub msg sig : List Byte) : Bool :=
  match lmsHeight (beNat (cutBytes pub 0 4)), otsType (beNat (cutBytes pub 4 4)) with
  | some h, some t =>
    let tid := cutBytes pub 8 16
    let q := beNat (cutBytes sig 0 4)
    let y := 4 + 4 + 32 + 32 * t.p
    let key := otsKey t tid q (cutBytes sig 8 32) (cutBytes sig 40 (32 * t.p)) msg
    let leaf := sha256 (tid ++ beBytes 4 (2 ^ h + q) ++ beBytes 2 0x8282 ++ key)
    pub.length == 56 && lmsSigLen pub == some sig.length && cutBytes sig 4 4 == cutBytes pub 4 4 &&
      cutBytes sig y 4 == cutBytes pub 0 4 && decide (q < 2 ^ h) &&
      lmsRoot tid (sig.drop (y + 4)) h 0 (2 ^ h + q) leaf == cutBytes pub 24 32
  | _, _ => false

/-- An HSS signature verifies under a public key of 60 bytes with L = 1 or 2 (R399). -/
def hssVerify (pub msg sig : List Byte) : Bool :=
  let levels := beNat (cutBytes pub 0 4)
  let top := pub.drop 4
  let body := sig.drop 4
  pub.length == 60 && decide (sig.length ≤ 5716) && beNat (cutBytes sig 0 4) + 1 == levels &&
    if levels = 1 then lmsVerify top msg body
    else levels == 2 &&
      match lmsSigLen top with
      | some n =>
        let next := cutBytes body n 56
        lmsVerify top next (body.take n) && lmsVerify next msg (body.drop (n + 56))
      | none => false

end Sys2Proof.Machine
end

