-- ==== Sys2Proof/Config.lean ====
section
/-! DEFINITION. What the specification leaves to each part: constants without a body, so that no proof
can see their values (log 5). -/

namespace Sys2Proof

/-- The built-in function tables of R174. They stand in the part data file, not in the manual. -/
inductive RomFn where
  | exp2 | log2 | rcp | rsqrt
  deriving DecidableEq, Repr

/-- The mask ROM table of a built-in function, in the layout of R130 (R174, R472). -/
opaque Config.romTable : RomFn → Machine.ActTable

/-- The identity seed that the PUF array, as power-up `n` of VDD_BT left it, yields with the helper data; none
when reconstruction fails (R403). -/
opaque Config.pufSeed : Nat → List Byte → Option (BitVec 256)

/-- The HSS signature that the attestation key of a seed makes at an index: seed, index, message (R411). -/
opaque Config.hssSign : BitVec 256 → Nat → List Byte → List Byte

/-- The HMAC key of reservation records, derived from the identity seed (R413). -/
opaque Config.reserveKey : BitVec 256 → List Byte

/-- SEED_CHECK as derived from an identity seed (R406). -/
opaque Config.seedCheck : BitVec 256 → BitVec 256

/-- ROOT_HASH, held in Prodom's mask ROM (R397). -/
opaque Config.rootHash : BitVec 256

/-- The logic that a group of isthmus bonds serves (R15). -/
inductive IsthLogic where
  | site (region site : Nat)   -- one cluster site
  | region (region : Nat)      -- logic that a whole region shares
  | chip                       -- logic that the whole chiplet shares
  deriving DecidableEq, Repr, Inhabited

/-- What each isthmus group serves, by its number; the manual does not say which is which (R14, R15). -/
opaque Config.isthServes : Nat → IsthLogic

/-- A fresh 256-bit value of Prodom's DRBG; the argument counts the values taken (R397, R425). -/
opaque Config.drbg : Nat → BitVec 256

/-- A free byte: what the manual leaves open; the argument is a counter of the state (log 5). -/
opaque Config.freeByte : Nat → Byte

/-- A free 64-bit value (log 5). -/
opaque Config.freeWord : Nat → W64

end Sys2Proof
end

