-- ==== Sys2Proof/Machine/VectorOps.lean ====
section
/-! DEFINITION. Stage words and operations of the vector chain (05_vector_chain, R149-R182). -/

namespace Sys2Proof.Machine

/-- A beat: 128 lanes of 32 bits (R149). -/
abbrev Beat := BitVec 4096

/-- Element `j` of width `w`, counted from bit 0 of lane 0 (R44, R149). -/
def beatElem (b : Beat) (w j : Nat) : Nat := field b.toNat (j * w) w

/-- A beat from its elements of width `w`. -/
def beatOf (w : Nat) (es : List Nat) : Beat :=
  BitVec.ofNat 4096 (es.foldr (fun e acc => acc * 2 ^ w + e % 2 ^ w) 0)

/-- Lane `i` (R149). -/
def lane (b : Beat) (i : Nat) : Nat := beatElem b 32 i

/-- The same word in every lane. -/
def splat (x : Nat) : Beat := beatOf 32 (List.replicate 128 x)

/-- LANE: the lane number in each lane (R151). -/
def laneBeat : Beat := beatOf 32 (List.range 128)

/-! ## Operations (R166) -/

/-- The operations of R166. -/
inductive VOp where
  | nop | mov | sel | and | or | xor | andn | shl | shr | sra | iadd | isub | iadds | isubs
  | imin | imax | icmpeq | icmplt | icmple | fadd | fsub | fmul | fma | fmin | fmax
  | fcmpeq | fcmpne | fcmplt | fcmple | exp2 | log2 | rcp | rsqrt | cvt | fdiv | fsqrt
  deriving DecidableEq, Repr

/-- Operation codes; every code not listed is reserved (R166). -/
def VOp.ofCode : Nat → Option VOp
  | 0x00 => some .nop | 0x01 => some .mov | 0x02 => some .sel
  | 0x04 => some .and | 0x05 => some .or | 0x06 => some .xor | 0x07 => some .andn
  | 0x08 => some .shl | 0x09 => some .shr | 0x0A => some .sra
  | 0x0C => some .iadd | 0x0D => some .isub | 0x0E => some .iadds | 0x0F => some .isubs
  | 0x10 => some .imin | 0x11 => some .imax
  | 0x12 => some .icmpeq | 0x13 => some .icmplt | 0x14 => some .icmple
  | 0x18 => some .fadd | 0x19 => some .fsub | 0x1A => some .fmul | 0x1B => some .fma
  | 0x1C => some .fmin | 0x1D => some .fmax
  | 0x1E => some .fcmpeq | 0x1F => some .fcmpne | 0x20 => some .fcmplt | 0x21 => some .fcmple
  | 0x24 => some .exp2 | 0x25 => some .log2 | 0x26 => some .rcp | 0x27 => some .rsqrt
  | 0x28 => some .cvt | 0x2C => some .fdiv | 0x2D => some .fsqrt
  | _ => none

/-- Operations on any format code. -/
def VOp.anyFmt : VOp → Bool
  | .nop | .mov | .sel | .and | .or | .xor | .andn | .cvt => true
  | _ => false

/-- The formats an operation accepts (R166). -/
def VOp.accepts (op : VOp) (f : Fmt) : Bool :=
  match op with
  | .nop | .mov | .sel | .and | .or | .xor | .andn | .cvt => true
  | .shl | .shr | .sra | .iadd | .isub | .iadds | .isubs | .imin | .imax
  | .icmpeq | .icmplt | .icmple => f == .i32 || f == .u32
  | .fadd | .fsub | .fmul | .fma => f == .t16 || f == .f32
  | .fmin | .fmax | .fcmpeq | .fcmpne | .fcmplt | .fcmple =>
    f == .t8 || f == .t8w || f == .t16 || f == .f32
  | .exp2 | .log2 | .rcp | .rsqrt | .fdiv | .fsqrt => f == .f32

/-- Operations that take an RM field in strict programs (R167). -/
def VOp.takesRm : VOp → Bool
  | .fadd | .fsub | .fmul | .fma | .fdiv | .fsqrt | .cvt => true
  | _ => false

/-- A stage word's fields (R164). -/
structure StageWord where
  op : Nat
  dst : Nat
  sa : Nat
  sb : Nat
  sc : Nat
  shsel : Nat
  shuf : Nat
  fmt : Nat
  rm : Nat
  deriving DecidableEq, Repr

/-- A 32-bit stage word taken apart (R164). -/
def StageWord.ofNat (x : Nat) : StageWord :=
  { op := field x 26 6, dst := field x 23 3, sa := field x 19 4, sb := field x 15 4, sc := field x 12 3,
    shsel := field x 10 2, shuf := field x 6 4, fmt := field x 2 4, rm := field x 0 2 }

/-- The word of a stage's fields (R164). -/
def StageWord.toNat (w : StageWord) : Nat :=
  place w.op 26 6 + place w.dst 23 3 + place w.sa 19 4 + place w.sb 15 4 + place w.sc 12 3 +
    place w.shsel 10 2 + place w.shuf 6 4 + place w.fmt 2 4 + place w.rm 0 2

/-- Whether the operation reads B, C (R165, R166). -/
def VOp.usesB : VOp → Bool
  | .nop | .mov | .exp2 | .log2 | .rcp | .rsqrt | .cvt | .fsqrt => false
  | _ => true

/-- Whether the operation reads C (R166). -/
def VOp.usesC : VOp → Bool
  | .fma | .sel => true
  | _ => false

/-! ## Element operations -/

/-- How a stage computes: format, direction, strictness and FLUSH (R66, R173, R176). -/
structure OpCtx where
  strict : Bool
  rm : Rnd
  flush : Bool
  deriving DecidableEq, Repr

/-- A mask element: all ones for true (R166). -/
def maskOf (w : Nat) (b : Bool) : Nat := if b then 2 ^ w - 1 else 0

/-- Value of a lane integer: signed in I32, unsigned in U32 (R166). -/
def laneInt (f : Fmt) (x : Nat) : Int := if f = .i32 then signedOf 32 x else (x % 2 ^ 32 : Nat)

/-- Saturation to the format's range, with RANGE (R166). -/
def saturate (f : Fmt) (i : Int) : Res := 
  if f = .i32 then cvtInt 32 (-2147483648) 2147483647 .ne (XVal.ofInt i)
  else cvtInt 32 0 4294967295 .ne (XVal.ofInt i)

/-- Logic, shifts and integers on one element (R166). -/
def intOp (op : VOp) (f : Fmt) (a b : Nat) : Res :=
  let plain : Nat → Res := fun x => ⟨x, false, false⟩
  let sh := b % 32
  let x := laneInt f a
  let y := laneInt f b
  match op with
  | .and => plain (a &&& b)
  | .or => plain (a ||| b)
  | .xor => plain (a ^^^ b)
  | .andn => plain (a &&& (b ^^^ (2 ^ f.width - 1)))
  | .shl => plain (a * 2 ^ sh % 2 ^ 32)
  | .shr => plain (a / 2 ^ sh)
  | .sra => plain (unsignedOf 32 (signedOf 32 a / (2 ^ sh : Nat)))
  | .iadd => plain ((a + b) % 2 ^ 32)
  | .isub => plain (unsignedOf 32 ((a : Int) - b))
  | .iadds => saturate f (x + y)
  | .isubs => saturate f (x - y)
  | .imin => plain (if x ≤ y then a else b)
  | .imax => plain (if x ≤ y then b else a)
  | .icmpeq => plain (maskOf 32 (x == y))
  | .icmplt => plain (maskOf 32 (decide (x < y)))
  | .icmple => plain (maskOf 32 (decide (x ≤ y)))
  | _ => plain a

/-- ⌊x⌋ of a finite value. -/
def xFloor : XVal → Int
  | .fin s m e => let n : Int := (roundNat .down s m e : Nat); if s then -n else n
  | _ => 0

/-- Significand and exponent with the value in [1, 2): x = m * 2^e, m given as an exact value. -/
def xNormal : XVal → XVal × Int
  | .fin _ m e => let l := floorLog2 m e; (.fin false m (e - l), l)
  | v => (v, 0)

/-- A value times 2^e. -/
def xScale (e : Int) : XVal → XVal
  | .fin s m f => .fin s m (f + e)
  | v => v

/-- EXP2, LOG2, RCP and RSQRT by the procedure of R174, with the ROM tables. -/
def romOp (op : VOp) (x : XVal) : XVal :=
  match op with
  | .exp2 => match x with
    | .nan => .nan
    | .inf s => if s then .zero else .inf false
    | x =>
      if x.ge (XVal.ofInt 128) then .inf false
      else if x.lt (XVal.ofInt (-150)) then .zero
      else
        let n := xFloor x
        xScale n (f32Val ((Config.romTable .exp2).eval (x.add false (XVal.ofInt (-n)))))
  | .log2 => match x with
    | .nan => .nan
    | .inf s => if s then .nan else .inf false
    | .fin s m e =>
      if m = 0 then .inf true else if s then .nan
      else
        let n := xNormal (.fin s m e)
        (XVal.ofInt n.2).add false (f32Val ((Config.romTable .log2).eval n.1))
  | .rcp => match x with
    | .nan => .nan
    | .inf s => .fin s 0 0
    | .fin s m e =>
      if m = 0 then .inf s
      else
        let n := xNormal (.fin s m e)
        let y := xScale (-n.2) (f32Val ((Config.romTable .rcp).eval n.1))
        if s then y.negate else y
  | .rsqrt => match x with
    | .nan => .nan
    | .inf s => if s then .nan else .zero
    | .fin s m e =>
      if m = 0 then .inf s else if s then .nan
      else
        let n := xNormal (.fin s m e)
        let odd := n.2 % 2
        xScale (-(n.2 - odd) / 2) (f32Val ((Config.romTable .rsqrt).eval (xScale odd n.1)))
  | _ => x

/-- Float operations on one element (R75, R76, R166, R173-R178). -/
def floatOp (k : OpCtx) (op : VOp) (f : Fmt) (a b c : Nat) : Res :=
  match f.param with
  | none => ⟨a, false, false⟩
  | some p =>
    let ieee := k.strict && f == .f32
    let r := if ieee then k.rm else .ne
    let on := k.flush && !k.strict
    let fa := p.flush on a
    let fb := p.flush (on && op.usesB) b
    let fc := p.flush (on && op == .fma) c
    let x := p.decode fa.1
    let y := p.decode fb.1
    let z := p.decode fc.1
    let down := r == .down
    let fin : XVal → Res := fun v =>
      let o := p.flush on (p.encodeIeee r v)
      ⟨o.1, false, o.2 || fa.2 || fb.2 || fc.2⟩
    let pick : Bool → Nat → Nat → Res := fun l s t => ⟨if l then s else t, false, fa.2 || fb.2⟩
    let mask : Bool → Res := fun m => ⟨maskOf f.width m, false, fa.2 || fb.2⟩
    match op with
    | .fadd => fin (x.add down y)
    | .fsub => fin (x.add down y.negate)
    | .fmul => fin (x.mul y)
    | .fma => fin ((x.mul y).add down z)
    | .fdiv => fin (x.div y)
    | .fsqrt => fin x.sqrt
    | .exp2 | .log2 | .rcp | .rsqrt =>
      let o := p.flush on (p.encodeIeee .ne (romOp op x))
      ⟨o.1, false, o.2 || fa.2⟩
    | .fmin => if x.isNan && y.isNan then pick true p.nanCode 0 else pick (x.minIsLeft y) fa.1 fb.1
    | .fmax => if x.isNan && y.isNan then pick true p.nanCode 0 else pick (x.maxIsLeft y) fa.1 fb.1
    | .fcmpeq => mask (x.cmp y == some .eq)
    | .fcmpne => mask (x.cmp y != some .eq)
    | .fcmplt => mask (x.lt y)
    | .fcmple => mask (y.ge x)
    | _ => ⟨a, false, false⟩

/-- T8 overflow of FMIN and FMAX cannot occur; every other float operation of T8 and T8W selects or
compares (R166). One element of any operation but CVT. -/
def elemOp (k : OpCtx) (op : VOp) (f : Fmt) (a b c : Nat) : Res :=
  match op with
  | .nop | .mov => ⟨a, false, false⟩
  | .sel => ⟨if c ≠ 0 then a else b, false, false⟩
  | .and | .or | .xor | .andn | .shl | .shr | .sra | .iadd | .isub | .iadds | .isubs | .imin | .imax
  | .icmpeq | .icmplt | .icmple => intOp op f a b
  | _ => floatOp k op f a b c

/-! ## Shuffles (R169, R170) -/

/-- The lane that lane `i` takes under a shuffle pattern; `none` when it does not exist. -/
def shufLane (pat i : Nat) (c3 : Beat) : Option Nat :=
  if pat ≤ 6 then some (i ^^^ 2 ^ pat)
  else match pat with
    | 7 => some (127 - i)
    | 8 | 9 => some i
    | 10 => if i < 127 then some (i + 1) else none
    | 11 => if 0 < i then some (i - 1) else none
    | 12 => some 0
    | 13 => let x := lane c3 i % 256; if x < 128 then some x else none
    | _ => none

/-- Halves or bytes exchanged within a lane (SWAP16, SWAP8). -/
def swapLane (pat x : Nat) : Nat :=
  match pat with
  | 8 => field x 16 16 + field x 0 16 * 2 ^ 16
  | 9 => field x 8 8 + field x 0 8 * 2 ^ 8 + field x 24 8 * 2 ^ 16 + field x 16 8 * 2 ^ 24
  | _ => x

/-- An operand through the shuffle; lanes not in use deliver +0 (R73, R170). -/
def shuffle (pat inUse : Nat) (c3 b : Beat) : Beat :=
  beatOf 32 ((List.range 128).map fun i =>
    match shufLane pat i c3 with
    | some x => if x < inUse then swapLane pat (lane b x) else 0
    | none => 0)

/-- Lanes in use at effective length `veff` of width `w` (R169). -/
def lanesInUse (veff w : Nat) : Nat := ceilDiv (veff * w) 32

/-! ## A stage (R150, R151, R165-R169) -/

/-- What every beat of a tile shares, and the beat's own row (R151, R169). -/
structure BeatCtx where
  consts : List Beat
  side : Nat
  nv : Nat
  vl : Nat
  inRow : Bool
  strict : Bool
  flush : Bool
  deriving DecidableEq, Repr

/-- A source by its code (R151). -/
def source (k : BeatCtx) (regs : List Beat) (c : Nat) : Beat :=
  if c < 8 then regs.getD c 0#4096
  else if c < 12 then k.consts.getD (c - 8) 0#4096
  else match c with
    | 12 => splat k.side
    | 13 => laneBeat
    | 14 => splat k.nv
    | _ => 0#4096

/-- A division or root in its three passes: the register and result it will enter (R178). -/
structure LongOp where
  dst : Nat
  result : Beat
  deriving DecidableEq, Repr

/-- What a stage leaves: registers, RANGE, SUBFLUSH, and a division or root begun. -/
structure StageOut where
  regs : List Beat
  range : Bool
  subflush : Bool
  long : Option LongOp
  deriving DecidableEq, Repr

/-- Elements of results packed, and the flags of those below `veff` in a row below M_v (R180). -/
def collect (k : BeatCtx) (w veff : Nat) (rs : List Res) : Beat × Bool × Bool :=
  let counted := if k.inRow then rs.take veff else []
  (beatOf w (rs.map (·.code)), counted.any (·.range), counted.any (·.subflush))

/-- One stage on one beat (R150, R165-R171, R178). -/
def stage (k : BeatCtx) (word : StageWord) (regs : List Beat) : StageOut :=
  match VOp.ofCode word.op, Fmt.ofCode word.fmt with
  | some .nop, _ => ⟨regs, false, false, none⟩
  | some op, some f =>
    let w := f.width
    let veff := min k.vl (4096 / w)
    let use := lanesInUse veff w
    let c3 := k.consts.getD 3 0#4096
    let a0 := source k regs word.sa
    let b0 := if op = .cvt then 0#4096 else source k regs word.sb
    let a := if word.shsel = 1 then shuffle word.shuf use c3 a0 else a0
    let b := if word.shsel = 2 then shuffle word.shuf use c3 b0 else b0
    let c := regs.getD word.sc 0#4096
    let ctx : OpCtx := ⟨k.strict, Rnd.ofCode word.rm, k.flush⟩
    let put : Beat → Bool → Bool → StageOut := fun r x y => ⟨regs.set word.dst r, x, y, none⟩
    match op with
    | .cvt =>
      match Fmt.ofCode word.sb with
      | none => ⟨regs, false, false, none⟩
      | some d =>
        let n := min (4096 / w) (4096 / d.width)
        let rs := (List.range n).map fun j => cvt f d k.strict ctx.rm k.flush (beatElem a w j)
        let o := collect k d.width (min k.vl n) rs
        put o.1 o.2.1 o.2.2
    | .fdiv | .fsqrt =>
      let rs := (List.range (4096 / w)).map fun j =>
        elemOp ctx op f (beatElem a w j) (beatElem b w j) (beatElem c w j)
      ⟨regs, false, false, some ⟨word.dst, (collect k w veff rs).1⟩⟩
    | op =>
      let rs := (List.range (4096 / w)).map fun j =>
        elemOp ctx op f (beatElem a w j) (beatElem b w j) (beatElem c w j)
      let o := collect k w veff rs
      put o.1 o.2.1 o.2.2
  | _, _ => ⟨regs, false, false, none⟩

/-- The eight stages of a pass on one beat (R150). -/
def passBeat (k : BeatCtx) (words : List StageWord) (regs : List Beat) : StageOut :=
  words.foldl (fun acc w =>
    let o := stage k w acc.regs
    ⟨o.regs, acc.range || o.range, acc.subflush || o.subflush, o.long.orElse fun _ => acc.long⟩)
    ⟨regs, false, false, none⟩

end Sys2Proof.Machine
end

