-- ==== Sys2Proof/Machine/Chart.lean ====
section
/-! DEFINITION. Charts: descriptor, positions, arguments, bounds, tiling and counters (06). -/

namespace Sys2Proof.Machine

/-! ## Descriptor parts (R184-R205) -/

/-- A position table entry (R186). -/
structure Position where
  group : Nat
  ctrChiplet : Nat
  counter : Nat
  quad : Nat
  chainPos : Nat
  chiplet : Nat
  region : Nat
  cluster : Nat
  deriving DecidableEq, Repr

/-- An 8-byte position entry taken apart (R186). -/
def Position.ofNat (x : Nat) : Position :=
  { group := field x 32 9, ctrChiplet := field x 26 3, counter := field x 16 10, quad := field x 12 2,
    chainPos := field x 9 3, chiplet := field x 6 3, region := field x 3 3, cluster := field x 0 3 }

/-- An argument table entry (R191). -/
structure ArgEntry where
  base : Nat
  strideB2 : Nat
  strideB1 : Nat
  strideRow : Nat
  fmt : Nat
  trans : Bool
  strideSrc : Bool
  baseSrc : Bool
  isLocal : Bool
  present : Bool
  deriving DecidableEq, Repr

/-- A 32-byte argument entry taken apart (R191). -/
def ArgEntry.ofNat (x : Nat) : ArgEntry :=
  { base := field x 184 56, strideB2 := field x 144 40, strideB1 := field x 104 40,
    strideRow := field x 64 40, fmt := field x 12 4, trans := testBit x 11, strideSrc := testBit x 10,
    baseSrc := testBit x 9, isLocal := testBit x 8, present := testBit x 7 }

/-- A bound table entry (R194). -/
structure BoundEntry where
  addr : Nat
  src : Nat
  value : Nat
  deriving DecidableEq, Repr

/-- A 16-byte bound entry taken apart (R194). -/
def BoundEntry.ofNat (x : Nat) : BoundEntry :=
  { addr := field x 72 56, src := field x 64 2, value := field x 0 64 }

/-- A loop descriptor (R196); `order` holds D0 to D4, outermost first. -/
structure Loop where
  tk : Nat
  tn : Nat
  tm : Nat
  tb2 : Nat
  tb1 : Nat
  buf : Nat
  slots : Nat
  order : List Nat
  deriving DecidableEq, Repr

/-- A 32-byte loop descriptor taken apart (R196). -/
def Loop.ofNat (x : Nat) : Loop :=
  { tk := field x 224 32, tn := field x 192 32, tm := field x 160 32, tb2 := field x 144 16,
    tb1 := field x 128 16, buf := field x 96 32, slots := field x 64 4,
    order := [field x 12 3, field x 9 3, field x 6 3, field x 3 3, field x 0 3] }

/-- Extent of a dimension: 0 M, 1 N, 2 K, 3 B1, 4 B2 (R196). -/
def Loop.ext (l : Loop) (d : Nat) : Nat :=
  match d with
  | 0 => l.tm | 1 => l.tn | 2 => l.tk | 3 => l.tb1 | 4 => l.tb2 | _ => 0

/-- The L1 address record (R201). -/
structure L1Addr where
  slotStride : Nat
  epiOff : Nat
  out1Off : Nat
  out0Off : Nat
  auxOff : Nat
  sideOff : Nat
  constOff : Nat
  deriving DecidableEq, Repr

/-- A 32-byte L1 address record taken apart (R201). -/
def L1Addr.ofNat (x : Nat) : L1Addr :=
  { slotStride := field x 144 24, epiOff := field x 120 24, out1Off := field x 96 24,
    out0Off := field x 72 24, auxOff := field x 48 24, sideOff := field x 24 24, constOff := field x 0 24 }

/-- A counter table entry (R205). -/
structure CtrEntry where
  limit : Nat
  first : Nat
  mode : Nat
  chiplet : Nat
  counter : Nat
  deriving DecidableEq, Repr

/-- A 32-byte counter entry taken apart (R205). -/
def CtrEntry.ofNat (x : Nat) : CtrEntry :=
  { limit := field x 192 64, first := field x 128 64, mode := field x 14 2, chiplet := field x 10 3,
    counter := field x 0 10 }

/-- A ferry pattern: control word and context template (R203). LEVEL: 0 L3, 1 L2, 2 L1 fill, 3
write-back. -/
structure Pattern where
  arg : Nat
  level : Nat
  regionMask : Nat
  clusterMask : Nat
  ctx : FerryCtx
  deriving DecidableEq, Repr

/-- An 80-byte pattern: 16 bytes of control word, 64 bytes of template (R203). -/
def Pattern.ofBytes (bs : List Byte) : Pattern :=
  let x := sub bs 0 16
  { arg := field x 24 4, level := field x 20 2, regionMask := field x 8 8, clusterMask := field x 0 8,
    ctx := FerryCtx.ofNat (sub bs 16 64) }

/-- A vector program (R157). `carry` holds one byte per pass, `passes` eight words per pass. -/
structure VProg where
  carry : List Nat
  out1Fmt : Nat
  out1Reg : Nat
  out1En : Bool
  out0Fmt : Nat
  out0Reg : Nat
  out0En : Bool
  constSrc : Nat
  auxFmt : Nat
  auxEn : Bool
  sideEn : Bool
  spillSlot : Nat
  strict : Bool
  vlSrc : Bool
  vlConst : Nat
  npass : Nat
  passes : List (List StageWord)
  consts : List Beat
  deriving DecidableEq, Repr

/-- A vector program from its bytes (R157). -/
def VProg.ofBytes (bs : List Byte) : VProg :=
  let h := sub bs 0 32
  let np := field h 0 4 + 1
  let cs := field h 36 4
  { carry := (List.range np).map fun p => field h (128 + 8 * p) 8,
    out1Fmt := field h 76 4, out1Reg := field h 73 3, out1En := testBit h 72,
    out0Fmt := field h 68 4, out0Reg := field h 65 3, out0En := testBit h 64,
    constSrc := cs, auxFmt := field h 32 4, auxEn := testBit h 31, sideEn := testBit h 30,
    spillSlot := field h 26 4, strict := testBit h 25, vlSrc := testBit h 24, vlConst := field h 13 11,
    npass := np,
    passes := (List.range np).map fun p =>
      (List.range 8).map fun s => StageWord.ofNat (sub bs (32 + 32 * p + 4 * s) 4),
    consts := if cs = 15 then [] else
      (List.range 4).map fun i => BitVec.ofNat 4096 (sub bs (32 + 32 * np + 512 * i) 512) }

/-- A chart (R184). -/
structure Chart where
  no : Nat
  service : Bool
  accum : Bool
  mode : Nat
  epi : Nat
  bsA : Nat
  bsB : Nat
  expG : Nat
  expT : Nat
  positions : List Position
  counters : List CtrEntry
  l3 : Loop
  l2 : Loop
  l1 : Loop
  l1addr : L1Addr
  args : List ArgEntry
  bounds : List BoundEntry
  patterns : List Pattern
  vprog : Option VProg
  deriving DecidableEq, Repr

/-- A chart from the bytes that start at its header (R184). -/
def Chart.ofBytes (bs : List Byte) : Chart :=
  let h := sub bs 0 64
  let off := fun lo => field h lo 32
  let npos := field h 246 10 + 1
  let nctr := field h 236 10 + 1
  let nf := field h 256 8
  let loopOff := off 352
  { no := field h 0 12, service := testBit h 14, accum := testBit h 15, mode := field h 64 32,
    epi := field h 96 32, bsA := field h 264 4, bsB := field h 268 4, expG := field h 275 5,
    expT := field h 280 8 + 1,
    positions := (List.range npos).map fun i => Position.ofNat (sub bs (off 288 + 8 * i) 8),
    counters := (List.range nctr).map fun i => CtrEntry.ofNat (sub bs (off 320 + 32 * i) 32),
    l3 := Loop.ofNat (sub bs loopOff 32), l2 := Loop.ofNat (sub bs (loopOff + 32) 32),
    l1 := Loop.ofNat (sub bs (loopOff + 64) 32), l1addr := L1Addr.ofNat (sub bs (loopOff + 96) 32),
    args := (List.range 16).map fun i => ArgEntry.ofNat (sub bs (off 384 + 32 * i) 32),
    bounds := (List.range 8).map fun i => BoundEntry.ofNat (sub bs (off 416 + 16 * i) 16),
    patterns := (List.range nf).map fun i => Pattern.ofBytes ((bs.drop (off 448 + 80 * i)).take 80),
    vprog := if off 480 = 0 then none else some (VProg.ofBytes (bs.drop (off 480))) }

/-! ## Fields of MX_MODE and MX_EPI (R148) -/

/-- CHAIN_POS, SHAPE, FLUSH, NUM_MODE, EXPAND, WSIDE, BSCALE, QUAD, B_FMT and A_FMT of MX_MODE. -/
def modeChainPos (m : Nat) : Nat := field m 27 3
def modeShape (m : Nat) : Nat := field m 24 3
def modeFlush (m : Nat) : Bool := testBit m 23
def modeNum (m : Nat) : Option NumMode := NumMode.ofCode (field m 20 3)
def modeExpand (m : Nat) : Nat := field m 18 2
def modeWside (m : Nat) : Bool := testBit m 17
def modeBscale (m : Nat) : Bool := testBit m 16
def modeQuad (m : Nat) : Nat := field m 12 2
def modeBFmt (m : Nat) : Nat := field m 8 4
def modeAFmt (m : Nat) : Nat := field m 4 4

/-- ACT_TABLE, ACT, BIAS, CSCALE, RSCALE, DEST, HIST and OUT_FMT of MX_EPI. -/
def epiActTable (e : Nat) : Nat := field e 24 8
def epiAct (e : Nat) : Nat := field e 22 2
def epiBiasSel (e : Nat) : Nat := field e 20 2
def epiCscale (e : Nat) : Bool := testBit e 19
def epiRscale (e : Nat) : Bool := testBit e 18
def epiDest (e : Nat) : Bool := testBit e 17
def epiHist (e : Nat) : Bool := testBit e 16
def epiOutFmt (e : Nat) : Nat := field e 0 4

/-- MX_MODE of a position: MODE with CHAIN_POS and QUAD of the entry, and BSCALE when SERVICE is 1 and
an operand has a block size (R185). -/
def positionMode (c : Chart) (p : Position) : Nat :=
  let m := setField (setField c.mode 27 3 p.chainPos) 12 2 p.quad
  setField m 16 1 (bit (c.service && (c.bsA % 8 != 0 || c.bsB % 8 != 0)))

/-- VC_CFG of a chart: the program's header fields, 0 without a program (R183, R185). -/
def vcCfgOf : Option VProg → Nat
  | none => 0
  | some v =>
    place (v.npass - 1) 24 4 + place (bit v.strict) 23 1 + place (bit v.vlSrc) 22 1 +
      place v.vlConst 11 11 + place (bit v.auxEn) 10 1 + place (bit v.sideEn) 9 1 +
      place v.spillSlot 5 4 + place v.constSrc 1 4 + 1

/-- The mode of a cluster's chart; STANDARD stands in for a code that no image holds (R85). -/
def chartMode (c : Chart) : NumMode := (modeNum c.mode).getD .standard

/-! ## Shapes (R102, R121, R187) -/

/-- Chain length of a shape code (R102). -/
def shapeChain (s : Nat) : Nat :=
  match s with
  | 1 => 2 | 2 => 4 | 3 => 8 | 7 => 2 | _ => 1

/-- Rows and columns of a shape's output (R102). -/
def shapeRows (s : Nat) : Nat := if s = 4 ∨ s = 6 ∨ s = 7 then 256 else 128
def shapeCols (s : Nat) : Nat := if s = 5 ∨ s = 6 ∨ s = 7 then 256 else 128

/-- QUAD values of a shape (R187). -/
def shapeQuads (s : Nat) : List Nat :=
  match s with
  | 4 => [0, 2] | 5 => [0, 1] | 6 | 7 => [0, 1, 2, 3] | _ => [0]

/-- The (CHAIN_POS, QUAD) pairs that a group holds (R187). -/
def shapeCombos (s : Nat) : List (Nat × Nat) :=
  (List.range (shapeChain s)).flatMap fun j => (shapeQuads s).map fun q => (j, q)

/-- A shape whose tile is cut among several arrays (R121). -/
def shapeMulti (s : Nat) : Bool := decide (1 < (shapeQuads s).length)

/-- Group numbers of a chart, each once. -/
def Chart.groups (c : Chart) : List Nat := (c.positions.map (·.group)).eraseDups

/-- Positions of one group. -/
def Chart.members (c : Chart) (g : Nat) : List Position := c.positions.filter (·.group == g)

/-- A group's leader: CHAIN_POS 0 and QUAD 0 (R188). -/
def Chart.leader (c : Chart) (g : Nat) : Option Position :=
  (c.members g).find? fun p => p.chainPos == 0 && p.quad == 0

/-! ## Addresses (R190-R193) -/

/-- Entry `i` of the argument table with the argument block's BASE and strides where the entry says so
(R191, R193). `blk` holds the block's 576 bytes. -/
def boundArg (c : Chart) (blk : List Byte) (i : Nat) : ArgEntry :=
  let a := c.args.getD i (ArgEntry.ofNat 0)
  let b := ArgEntry.ofNat (sub blk (64 + 32 * i) 32)
  { a with
    base := if a.baseSrc then b.base else a.base,
    strideB2 := if a.strideSrc then b.strideB2 else a.strideB2,
    strideB1 := if a.strideSrc then b.strideB1 else a.strideB1,
    strideRow := if a.strideSrc then b.strideRow else a.strideRow }

/-- Address of element (row, col) at batch coordinates (b1, b2), modulo 2^56 (R192). `chip` is the
position's chiplet ID, used when LOCAL is 1; `byteCols` marks CONST. -/
def elemAddr (a : ArgEntry) (f : Fmt) (byteCols : Bool) (chip row col b1 b2 : Nat) : Nat :=
  let cb := if byteCols then col else colBytes f col
  let x := (a.base + b2 * a.strideB2 + b1 * a.strideB1 + row * a.strideRow + cb) % 2 ^ 56
  if a.isLocal then setField x 52 3 chip else x

/-! ## Bounds (R194, R195) -/

/-- Bounds 0, 1, 3 and 4 are cut to 2^32 - 1, bound 2 to 4,294,967,264 (R195). -/
def clampBound (i v : Nat) : Nat :=
  match i with
  | 0 | 1 | 3 | 4 => min v (2 ^ 32 - 1)
  | 2 => min v 4294967264
  | _ => v

/-- Bound of an output dimension or K by its dimension code (R194, R199). -/
def boundOf (bs : List Nat) (d : Nat) : Nat := bs.getD d 0

/-! ## Tile numbering (R199) -/

/-- Blocks of a level along a dimension (R199). -/
def tileCnt (c : Chart) (bs : List Nat) (l d : Nat) : Nat :=
  match l with
  | 1 => c.l2.ext d / c.l1.ext d
  | 2 => c.l3.ext d / c.l2.ext d
  | _ => ceilDiv (boundOf bs d) (c.l3.ext d)

/-- The output dimensions in a level's order, innermost first, K removed (R199). -/
def outDims (l : Loop) : List Nat := (l.order.filter (· != 2)).reverse

/-- The loop of a level. -/
def Chart.loop (c : Chart) (l : Nat) : Loop :=
  match l with
  | 1 => c.l1 | 2 => c.l2 | _ => c.l3

/-- Every (level, dimension) of the numbering, fastest first (R199). -/
def tileAxes (c : Chart) : List (Nat × Nat) :=
  [1, 2, 3].flatMap fun l => (outDims (c.loop l)).map fun d => (l, d)

/-- The tile count T (R199). -/
def tileCount (c : Chart) (bs : List Nat) : Nat :=
  (tileAxes c).foldl (fun t a => t * tileCnt c bs a.1 a.2) 1

/-- Block coordinates of tile `t` along each axis (R199). -/
def tileCoordsFrom (c : Chart) (bs : List Nat) : List (Nat × Nat) → Nat → List ((Nat × Nat) × Nat)
  | [], _ => []
  | a :: as, t =>
    let n := tileCnt c bs a.1 a.2
    (a, t % n) :: tileCoordsFrom c bs as (t / n)

/-- Origin of tile `t` along dimension `d` (R199). -/
def tileOrigin (c : Chart) (bs : List Nat) (t d : Nat) : Nat :=
  (tileCoordsFrom c bs (tileAxes c) t).foldl
    (fun o x => if x.1.2 = d then o + x.2 * (c.loop x.1.1).ext d else o) 0

/-- Number of the tile whose origin is `o`: the numbering of R199 read backwards. -/
def tileAt (c : Chart) (bs : List Nat) (o : Nat → Nat) : Nat :=
  ((tileAxes c).foldl (fun (x : Nat × Nat) a =>
    let n := tileCnt c bs a.1 a.2
    let q := o a.2 / max ((c.loop a.1).ext a.2) 1
    (x.1 + x.2 * (if a.1 = 3 then q else q % max n 1), x.2 * n)) (0, 1)).1

/-- Where a tile's array begins and how much of it lies in bounds (R139, R199). -/
structure TileGeom where
  row0 : Nat
  col0 : Nat
  b1 : Nat
  b2 : Nat
  mv : Nat
  nv : Nat
  k : Nat
  deriving DecidableEq, Repr

/-- Geometry of tile `t` for the array with QUAD `q`: 128 rows or columns are added by its bits; a
tile whose batch coordinates lie outside the bounds has no element in bounds (R139, R143, R199). -/
def tileGeom (c : Chart) (bs : List Nat) (t q : Nat) : TileGeom :=
  let r := tileOrigin c bs t 0 + (if testBit q 1 then 128 else 0)
  let n := tileOrigin c bs t 1 + (if testBit q 0 then 128 else 0)
  let b1 := tileOrigin c bs t 3
  let b2 := tileOrigin c bs t 4
  let out := decide (boundOf bs 3 ≤ b1) || decide (boundOf bs 4 ≤ b2)
  { row0 := r, col0 := n, b1 := b1, b2 := b2,
    mv := if out then 0 else min 128 (boundOf bs 0 - r),
    nv := if out then 0 else min 128 (boundOf bs 1 - n), k := boundOf bs 2 }

/-! ## Staging (R197, R200) -/

/-- Block-scale size of a code: none, or 16 to 256 elements (R184, R64). -/
def bsSize (c : Nat) : Nat :=
  match c % 8 with
  | 1 => 16 | 2 => 32 | 3 => 64 | 4 => 128 | 5 => 256 | _ => 0

/-- Sharing along M or N rather than K (R184). -/
def bsAcross (c : Nat) : Bool := testBit c 3

/-- Scales that `n` elements from `o` on meet, with `s` elements to a scale (R64, R190). -/
def scaleSpan (o n s : Nat) : Nat := (o + n - 1) / max s 1 - o / max s 1 + 1

/-- The most scales that `n` elements meet, wherever a block of `n` begins: its origin is a multiple of `n`,
so it lies at most `s - gcd n s` elements into a scale (R64, R197). -/
def scaleSpanMax (n s : Nat) : Nat := scaleSpan (max s 1 - Nat.gcd n (max s 1)) n s

/-- Output tiles of one block of a level (R199). -/
def tilesPerBlock (c : Chart) (l : Loop) : Nat :=
  [0, 1, 3, 4].foldl (fun n d => n * (l.ext d / max (c.l1.ext d) 1)) 1

/-- Rows and columns of the block of argument slot `i` that a level's extents cover, in the slot's own
coordinates (R190, R197). A block that straddles scales holds every scale it meets; CONST holds a row for each
tile of the block. -/
def blockShape (c : Chart) (l : Loop) (i : Nat) (trans : Bool) : Nat × Nat :=
  let sz := scaleSpanMax
  match i with
  | 0 => if trans then (l.tk, l.tm) else (l.tm, l.tk)
  | 1 => if trans then (l.tn, l.tk) else (l.tk, l.tn)
  | 3 => (1, l.tm) | 4 => (1, l.tn) | 5 => (1, l.tn)
  | 6 => (1, if modeWside c.mode then l.tn else l.tm)
  | 7 => (c.expT, 16)
  | 8 => if bsAcross c.bsA then (sz l.tm (bsSize c.bsA), l.tk) else (l.tm, sz l.tk (bsSize c.bsA))
  | 9 => if bsAcross c.bsB then (l.tk, sz l.tn (bsSize c.bsB)) else (sz l.tk (bsSize c.bsB), l.tn)
  | 11 => (l.tm, l.tn) | 12 => (1, l.tm) | 13 => (tilesPerBlock c l, 2048)
  | _ => (l.tm, l.tn)

/-- Rows and columns that the block at origin `o` covers: those of its shape, with the scales that it meets
(R64, R190, R197). -/
def blockCover (c : Chart) (l : Loop) (i : Nat) (trans : Bool) (o : Nat → Nat) : Nat × Nat :=
  match i with
  | 8 => if bsAcross c.bsA then (scaleSpan (o 0) l.tm (bsSize c.bsA), l.tk)
         else (l.tm, scaleSpan (o 2) l.tk (bsSize c.bsA))
  | 9 => if bsAcross c.bsB then (l.tk, scaleSpan (o 1) l.tn (bsSize c.bsB))
         else (scaleSpan (o 2) l.tk (bsSize c.bsB), l.tn)
  | _ => blockShape c l i trans

/-- Bytes of a pattern's block at a level: its rows packed one after another, or the padded
destination of a USER slot's template (R197). -/
def blockBytes (c : Chart) (l : Loop) (p : Pattern) : Nat :=
  if p.arg = 14 ∨ p.arg = 15 then
    match Fmt.ofCode p.ctx.fmt with
    | none => 0
    | some f => p.ctx.planes * (p.ctx.dstRows + p.ctx.padRows) * rowBytes f (p.ctx.dstCols + p.ctx.padCols)
  else
    let a := c.args.getD p.arg (ArgEntry.ofNat 0)
    let s := blockShape c l p.arg a.trans
    let n := max l.tb1 1 * max l.tb2 1
    match Fmt.ofCode a.fmt with
    | none => 0
    | some f => n * s.1 * (if p.arg = 13 then s.2 else rowBytes f s.2)

/-- Patterns of a level. -/
def Chart.patternsAt (c : Chart) (lv : Nat) : List Pattern := c.patterns.filter (·.level == lv)

/-- Size of a staging slot: every block the level stages, rounded up to 4 KiB (R197). -/
def slotBytes (c : Chart) (lv : Nat) : Nat :=
  let l := if lv = 0 then c.l3 else c.l2
  4096 * ceilDiv (((c.patternsAt lv).map (blockBytes c l)).foldl (· + ·) 0) 4096

/-- Blocks of a staging level along a dimension, in the order of the level inside the next: for L2 those of one
L3 block, then the L3 blocks; K is cut by R198 (R199, R200). -/
def levelAxes (c : Chart) (lv : Nat) : List (Nat × Nat) :=
  (if lv = 0 then [] else c.l2.order.reverse.map fun d => (2, d)) ++ c.l3.order.reverse.map fun d => (3, d)

/-- Blocks along an axis of the full order, K included (R198, R200). -/
def levelCnt (c : Chart) (bs : List Nat) (a : Nat × Nat) : Nat :=
  if a.1 = 2 then c.l3.ext a.2 / max (c.l2.ext a.2) 1
  else if a.2 = 2 then ceilDiv (kPad (boundOf bs 2)) (max c.l3.tk 1)
  else tileCnt c bs 3 a.2

/-- Place of the block at `coords` in a level's full order (R200). -/
def blockRank (c : Chart) (bs : List Nat) (lv : Nat) (coords : List Nat) : Nat :=
  ((levelAxes c lv).foldl (fun (x : Nat × Nat) a =>
    let n := levelCnt c bs a
    let q := coords.getD a.2 0
    let m := c.l3.ext a.2 / max (c.l2.ext a.2) 1
    let i := if lv = 0 then q else if a.1 = 2 then q % max m 1 else q / max m 1
    (x.1 + x.2 * i, x.2 * n)) (0, 1)).1

/-- Coordinates of the block at a place of a level's full order (R200). -/
def blockOf (c : Chart) (bs : List Nat) (lv n : Nat) : List Nat :=
  let digits := ((levelAxes c lv).foldl (fun (x : List ((Nat × Nat) × Nat) × Nat) a =>
    (x.1 ++ [(a, x.2 % max (levelCnt c bs a) 1)], x.2 / max (levelCnt c bs a) 1)) ([], n)).1
  (List.range 5).map fun d => digits.foldl (fun q y =>
    if y.1.2 ≠ d then q
    else if lv = 0 ∨ y.1.1 = 2 then q + y.2 else q + y.2 * (c.l3.ext d / max (c.l2.ext d) 1)) 0

/-- P of R200: the product of the block counts of the output dimensions that stand after K. -/
def afterK (c : Chart) (bs : List Nat) (l : Nat) : Nat :=
  ((((c.loop l).order.dropWhile (· != 2)).drop 1).map (tileCnt c bs l)).foldl (· * ·) 1

/-- Whether K stands ahead of an output dimension in a level's order (R200). -/
def kAhead (l : Loop) : Bool := !((l.order.dropWhile (· != 2)).drop 1).isEmpty

/-- The slot test of START (R200): `some 3` or `some 2` names the level that has too few slots. An L2
with SLOTS = 0 streams and is not tested. -/
def slotFault (c : Chart) (bs : List Nat) : Option Nat :=
  let bad := fun l => kAhead (c.loop l) && decide ((c.loop l).slots < afterK c bs l + 1)
  if bad 3 then some 3 else if c.l2.slots ≠ 0 && bad 2 then some 2 else none

end Sys2Proof.Machine
end

