-- ==== Sys2Proof/Machine/FlashLog.lean ====
section
/-! DEFINITION. The flash log area: segments, records, and how a record is appended (R441-R445). The area is held
as a sparse memory of inverted bytes, so that a byte nothing has programmed reads as the 0xFF of an erased
flash. -/

namespace Sys2Proof.Machine

/-- Bytes of a segment (R441). -/
def segBytes : Nat := 2 ^ 20

/-- `n` bytes of the log area. -/
def logRead (m : Mem) (a n : Nat) : List Byte := (memReadN m a n).map (~~~ ·)

/-- A little-endian value of the log area. -/
def logNat (m : Mem) (a n : Nat) : Nat := bytesToNat (logRead m a n)

/-- Bytes programmed into the log area. -/
def logWrite (m : Mem) (a : Nat) (bs : List Byte) : Mem := memWriteN m a (bs.map (~~~ ·))

/-- SEG_SEQ of a segment whose header is valid: MAGIC and CRC (R441). -/
def segSeq (m : Mem) (g : Nat) : Option Nat :=
  let h := logRead m (g * segBytes) 64
  if sub h 0 4 = 0x534C5152 ∧ sub h 60 4 = crc32c (h.take 60) then some (sub h 8 8) else none

/-- The segments with a valid header, each with its SEG_SEQ, newest first (R443). -/
def logSegs (m : Mem) (size : Nat) : List (Nat × Nat) :=
  let all := (List.range (size / segBytes)).filterMap fun g => (segSeq m g).map fun q => (q, g)
  all.foldl (fun xs x => xs.filter (fun y => decide (x.1 < y.1)) ++ x :: xs.filter (fun y => decide (y.1 ≤ x.1))) []

/-- The first 64-byte boundary after the last byte of a segment that is not 0xFF, as an offset in it (R442). -/
def segEnd (m : Mem) (g : Nat) : Nat :=
  let used := m.filter fun c => c.1 / segBytes == g
  match used.getLast? with
  | some c => (c.1 % segBytes / 64 + 1) * 64
  | none => 0

/-- A record stands at an offset of a segment: LEN a multiple of 64 inside the segment, and a CRC that matches
(R442). -/
def recordAt (m : Mem) (g off : Nat) : Option (List Byte) :=
  let a := g * segBytes + off
  let len := logNat m (a + 4) 4
  if len % 64 = 0 ∧ 64 ≤ len ∧ off + len ≤ segBytes then
    let r := logRead m a len
    if sub r (len - 4) 4 = crc32c (r.take (len - 4)) then some r else none
  else none

/-- The records of a segment from an offset up; what is no record is passed by 64 bytes at a time (log 151). -/
def recordsFrom (m : Mem) (g stop : Nat) : Nat → Nat → List (List Byte)
  | 0, _ => []
  | fuel + 1, off =>
    if stop ≤ off then []
    else match recordAt m g off with
      | some r => r :: recordsFrom m g stop fuel (off + r.length)
      | none => recordsFrom m g stop fuel (off + 64)

/-- The records of a segment, in order (R442). -/
def segRecords (m : Mem) (g : Nat) : List (List Byte) := recordsFrom m g (segEnd m g) 16384 64

/-- The records of the two newest segments, oldest first (R443, R444). -/
def logRecords (m : Mem) (size : Nat) : List (List Byte) :=
  ((logSegs m size).take 2).reverse.flatMap fun x => segRecords m x.2

/-- TYPE, SERIAL, POWERON and body of a record (R442). -/
def recType (r : List Byte) : Nat := sub r 0 2
def recSerial (r : List Byte) : Nat := sub r 8 8
def recPowerOn (r : List Byte) : Nat := sub r 16 8
def recBody (r : List Byte) : List Byte := (r.drop 32).take (r.length - 36)

/-- A later record of a list supersedes `r`: a TOTALS or RESERVE record of its SERIAL, or a BINDING record of it
with at least its BIND_COUNT; an earlier BINDING record does with a higher one (R443). -/
def superseded (before after : List (List Byte)) (r : List Byte) : Bool :=
  let same := fun x => recType x == recType r && recSerial x == recSerial r
  let count := fun x => sub x 40 4
  if recType r = 5 then
    (after.any fun x => same x && decide (count r ≤ count x)) ||
      before.any fun x => same x && decide (count r < count x)
  else after.any same

/-- The live records of a list, in order (R443). -/
def liveFrom (before : List (List Byte)) : List (List Byte) → List (List Byte)
  | [] => []
  | r :: rs =>
    let rest := liveFrom (before ++ [r]) rs
    if (recType r == 1 || recType r == 5 || recType r == 6) && !superseded before rs r then r :: rest else rest

/-- The live records of the two newest segments (R443). -/
def liveRecords (m : Mem) (size : Nat) : List (List Byte) := liveFrom [] (logRecords m size)

/-- The 64-byte header of a segment (R441). -/
def segHeader (seq : Nat) : List Byte :=
  let h := natToBytes 4 0x534C5152 ++ natToBytes 4 0 ++ natToBytes 8 seq ++ natToBytes 44 0
  h ++ natToBytes 4 (crc32c h)

/-- The segment that opens next: the first without a valid header, else the one with the lowest SEG_SEQ
(R441). -/
def nextSeg (m : Mem) (size : Nat) : Nat :=
  match firstBelow (size / segBytes) fun g => (segSeq m g).isNone with
  | some g => g
  | none => match (logSegs m size).getLast? with
    | some x => x.2
    | none => 0

/-- Records programmed one after another from an offset of the log area. -/
def logProgram (m : Mem) (a : Nat) (rs : List (List Byte)) : Mem := logWrite m a rs.flatten

/-- A segment opened: erased, its header one above the newest SEG_SEQ, then a copy of every live record (R441,
R443). -/
def openSegment (m : Mem) (size : Nat) : Mem :=
  let g := nextSeg m size
  let seq := match (logSegs m size).head? with
    | some x => x.1 + 1
    | none => 1
  logProgram (memClear m (g * segBytes) segBytes) (g * segBytes) (segHeader seq :: liveRecords m size)

/-- The open segment and the offset in it at which the next record goes, while `len` bytes fit (R441, R442). -/
def logPlace (m : Mem) (size len : Nat) : Option (Nat × Nat) :=
  match (logSegs m size).head? with
  | some x => let o := segEnd m x.2; if o + len ≤ segBytes then some (x.2, o) else none
  | none => none

/-- A record appended: to the open segment, or to one opened for it (R441-R443). -/
def logAppend (m : Mem) (size : Nat) (r : List Byte) : Mem :=
  let m1 := if (logPlace m size r.length).isSome then m else openSegment m size
  match (logSegs m1 size).head? with
  | some x => logWrite m1 (x.2 * segBytes + segEnd m1 x.2) r
  | none => m1

/-- LT_LOG_HEAD: SEG_SEQ of the open segment and the offset of the next append within the log area (R449). -/
def logHead (m : Mem) (size : Nat) : Nat × Nat :=
  match (logSegs m size).head? with
  | some x => (x.1, x.2 * segBytes + segEnd m x.2)
  | none => (0, 0)

end Sys2Proof.Machine
end

