-- ==== Sys2Proof/Machine/State.lean ====
section
/-! DEFINITION. The state of the block: one chiplet, with everything the specification gives it. Each
structure names the chapter it comes from; INVENTORY.md lists every piece with its rule. -/

namespace Sys2Proof.Machine

/-- The faults of the block. No command faults: R18 gives every operation a defined result, and anomalies
are registers, records and responses. Safe: raised by nothing. -/
inductive Fault where
  /-- Raised by no command. -/
  | none
  deriving DecidableEq, Repr

/-- The refusals of the block. -/
inductive Refusal where
  /-- A command whose meaning is not written yet; raised by its arm in Dispatch.lean alone. Safe. -/
  | notModelled (mnemonic : String)
  deriving DecidableEq, Repr

/-! ## What leaves the chiplet (log 1) -/

/-- What an instance's owner and the other chiplets of its positions tell each other, without a layout in the
manual: BIND, RELEASE, START, STOP and RESUME passed on, a fault met, a displacement (R147, R185, R366, R369). -/
inductive InstWord where
  | bind | release | start | stop | resume | fault | displace
  deriving DecidableEq, Repr

/-- Messages between the chiplets of the package that the manual names without a layout. -/
inductive PkgMsg where
  | assign (id : Nat) (cold : Bool)      -- PK_ASSIGN along the PATH of an entry (R342)
  | report (halt : W32)                  -- a halt report to the lead (R346)
  | stop                                 -- the lead stops the sequence (R346, R476)
  | share (id powerOn : Nat) (helper : List Byte) (records : List (List Byte))  -- a member's share: the image,
                                         -- PK_POWERON, its helper entry and its log records (R340, R402, R405, R444)
  | mirror (rec_ : List Byte)            -- a record for every mirror log (R445)
  | running                              -- step 17 (R341)
  | enterEbb | enterSlack                -- R382, R385
  | eraseEntry (serial : W64)            -- R421
  | token (bytes : List Byte)            -- R425
  | attest (id : Nat) (nonce : BitVec 256)  -- R416
  | collect                              -- the lead reads every snapshot (R446)
  | stopRings                            -- the lead stops every ring (R386)
  | features (w : W32)                   -- HG_PKG_FEAT written on every chiplet (R343)
  | described (id : Nat)                 -- a chiplet named reports itself (R342)
  | issue (inst grp index : Nat)         -- a tile index passed to positions elsewhere (R188)
  | tell (inst : Nat) (word : InstWord)  -- of an instance with positions elsewhere (log 142)
  | counter (chip ctr value limit : Nat) -- a counter of another chiplet set (R206)
  | rested (inst : Nat) (e : FarEnd)     -- an instance of another chiplet rests here (R147, R361, R371)
  deriving DecidableEq, Repr

/-! A request, and where its answer goes (R248, R296-R298, R302). -/

/-- A request that another initiator made here: its port, SRC, TAG and stream, and whether it came through
the gate of that port (R295, R303, R315). -/
structure Origin where
  port : Port
  src : BitVec 3
  tag : BitVec 14
  ostr : BitVec 8
  gate : Bool
  deriving DecidableEq, Repr

/-- Where the answer of a request goes. -/
inductive Purpose where
  /-- A read of `n` bytes of a context's row from byte `off`; the response holds them from `skip` (R248). -/
  | ferry (r : Region) (id row off n skip : Nat)
  /-- Another initiator's access: `n` bytes of the answer from `off` (R296). -/
  | serve (o : Origin) (off n : Nat)
  /-- The read half of another initiator's write to part of a stack block, `data` at `off` (R310). -/
  | merge (o : Origin) (off : Nat) (data : List Byte)
  /-- A context's write of bytes of source row `row` (R245). -/
  | ctxWrite (r : Region) (id row : Nat)
  /-- The chiplet's own. -/
  | own
  deriving DecidableEq, Repr

/-- A request to send: operation code and ATOP of R297 and R298, address at the partner, and its place in a
stream, 0 for none. RD and WR leave a memory port as MRD and MWR. -/
structure Post where
  port : Port
  op : Nat
  atop : Nat
  addr : Nat
  len : Nat
  data : List Byte
  op0 : W64
  op1 : W64
  ostr : BitVec 8
  oseq : BitVec 12
  use_ : Purpose
  deriving DecidableEq, Repr

/-- One thing sent to a partner, a pin, the flash or another chiplet. -/
inductive Out where
  | flit (b : BundleNo) (bytes : List Byte) (uis : List (BitVec 36))   -- a flit, and its UI on the lanes (R270)
  | mapMsg (b : BundleNo) (w : W64) (uis : List (BitVec 36))   -- a map message, and its UI on the lanes (R264)
  | prbs (b : BundleNo) (seeds : List (BitVec 31))    -- PRBS31 on lanes 0-34, from these seeds (R265)
  | clock (b : BundleNo) (on : Bool)                  -- forwarded clock and TRK (R257)
  | request (x : Post)                                -- a request answered within the command, by its operand
  | store (addr : Nat) (data : List Byte)             -- the image share written to the stacks (R340)
  | dbell (addr : Nat) (v : W64)                      -- a NOTIFY DBELL to this chiplet itself (R368, log 135)
  | append (rec_ : List Byte)                         -- a record for the lead's flash log (R442)
  | erased (serial : W64)                             -- a helper entry programmed to zeros (R421)
  | alarmN (low : Bool)                               -- ALARM_N driven or released (R418)
  | thermN (low : Bool)                               -- THERM_N (R393)
  | toPkg (m : PkgMsg)
  | tdo (v : W64)                                     -- TAP data (R428, R429)
  | value (v : W64)                                   -- the value a register read returned (R13)
  deriving DecidableEq, Repr

/-! ## Start-up (10) -/

/-- Where the start sequence stands (R326-R330, R341, R346, R476). -/
inductive Phase where
  | inReset | standbyWait | starting | halted | stopped | running
  deriving DecidableEq, Repr

/-- PK_HALT (R346). -/
structure Halt where
  halted : Bool
  chip : BitVec 3
  code : BitVec 8
  detail : BitVec 16
  deriving DecidableEq, Repr

/-- PK_REGIONr (R23, R26). -/
structure Sites where
  clusters : BitVec 4
  tested : BitVec 9
  pass : BitVec 9
  deriving DecidableEq, Repr

/-- Role, clock and start-up registers (R352) and what the sequence keeps (R322, R341, R342). -/
structure Pk where
  phase : Phase
  stepping : BitVec 8
  grade : Bool
  acting : Bool
  yielded : Bool
  lead : Bool
  strap : BitVec 2
  idValid : Bool
  id : BitVec 3
  running : Bool
  cold : Bool
  step : BitVec 5
  halt : Halt
  aoTrimmed : Bool
  refclkOk : Bool
  pllLock : Bool
  upPort : BitVec 4
  tree : Bool
  powerOn : W64
  startTime : W32
  steps : W64
  imgBase : Addr
  imageSeq : W64
  route : BitVec 24
  rstLow : Bool               -- RST_N or PWRGOOD low (R320, R321)
  pwrLow : Bool               -- PWRGOOD has been low since the previous start (R321)
  deriving DecidableEq, Repr

/-- What start-up settles about the die and the package (R15, R23, R336, R342, R345, R347, R452). -/
structure Site where
  regions : Vector Sites 8
  bonds : List (Nat × Nat)    -- isthmus bonds that failed: group and bond, 32 for the spare (R14)
  vct : Nat
  fwStarted : BitVec 8
  fwReady : BitVec 8
  found : List Found
  stackBad : BitVec 2         -- stacks treated as failed (R345)
  image : Mem
  deriving DecidableEq, Repr

/-! ## Causeway link (08) -/

/-- The map of a direction: FAIL and MODE (R261, R263). -/
structure LaneMap where
  fail : BitVec 34
  mode : BitVec 2
  deriving DecidableEq, Repr

/-- A flit that waits for a bundle or an ACK: PROTO and payload (R270, R271). -/
structure TxFlit where
  proto : W64
  payload : List Byte
  deriving DecidableEq, Repr

/-- Why a bundle exchanges maps (R265, R280, R288). -/
inductive MapFor where
  | training | diagnosis | lpExit
  deriving DecidableEq, Repr

/-- One bundle (R265-R290). `state` is CW_BSTATE.STATE. -/
structure Bundle where
  state : BitVec 4
  mapdiff : Bool
  diags : BitVec 8
  tx : LaneMap            -- the maps last exchanged, by which flits run
  rx : LaneMap
  txNew : LaneMap         -- the maps of the exchange under way (R264)
  rxNew : LaneMap
  txStart : BitVec 34     -- FAIL as chosen at this start (R268)
  rxStart : BitVec 34
  wide : Bool             -- it last ran with both directions in full mode (R290)
  txScr : Vector (BitVec 23) 32   -- scramblers of the logical lanes (R260)
  rxScr : Vector (BitVec 23) 32
  trk : BitVec 7          -- the generator on TRK (R259)
  crcErr : W64
  replay : W64
  flitsRx : W64
  step : Nat              -- step of R265, R280 or R288 last begun
  why : MapFor
  mapSent : Bool
  mapGot : Bool
  nextSeq : BitVec 12
  expSeq : BitVec 12
  held : List (BitVec 12 × TxFlit)
  replays : Nat
  nakDue : Bool
  nakFor : Option (BitVec 12)
  sinceNak : Nat
  badRun : Nat
  goodRun : Nat
  barren : List Nat       -- times of diagnoses that added no lane (R282)
  lp : Nat                -- step of R287 last begun
  diagAfter : Bool        -- R288: a diagnosis follows the sync
  alignBad : BitVec 36    -- lanes that this training could not align (R265)
  added : Bool            -- this diagnosis added a lane to FAIL (R282)
  diagCc : Nat            -- compute cycle at which its check ended
  placed : Nat            -- DATA flits placed in this round of the port's bundles, for the share of R278
  deriving DecidableEq, Repr

/-- A message decoded from a message flit, by its slots (R294). -/
structure RxMsg where
  slots : List (BitVec 128)
  deriving DecidableEq, Repr

/-- One port (R254, R290, R299, R306). -/
structure PortSt where
  state : BitVec 4
  capSent : Bool
  capAcked : Bool
  capGot : Bool
  partner : List Byte           -- the partner's capability record, 48 bytes
  sent : Vector (BitVec 20) 3
  credit : Vector (BitVec 20) 3 -- freed counts held from the receiver
  freed : Vector (BitVec 20) 3  -- freed counts to return
  returned : Vector (BitVec 20) 3
  txWait : List TxFlit
  inbox : List (List RxMsg)     -- messages of each flit that wait to be acted on, in slot order (R294)
  payWait : List TxFlit
  retiring : List (BitVec 8)    -- port-local bundles whose RETIRE waits for an answer (R281)
  ticks : BitVec 2              -- periods of 16 flit times, for the repetitions every 64 (R281, R287)
  deriving DecidableEq, Repr

/-- The causeways (R290). -/
structure Link where
  replayTo : BitVec 16
  bundles : Vector Bundle 82
  ports : Vector PortSt 7
  deriving DecidableEq, Repr

/-! ## Causeway protocol and gate (09) -/

/-- A request that holds a read tag or a write identifier (R248, R302). -/
structure Outst where
  id : BitVec 14
  resent : Bool
  x : Post
  deriving DecidableEq, Repr

/-- A request of a stream that waits its turn (R303). -/
structure StreamReq where
  op : Nat              -- operation code and ATOP (R297, R298)
  atop : Nat
  q : Req
  data : List Byte
  tdo : W64             -- TSB: the test data out that the segment gives (R297)
  deriving DecidableEq, Repr

/-- An ordered stream at its target or gate (R303, R304, R315). -/
structure Stream where
  port : Port
  src : BitVec 3
  ostr : BitVec 8
  next : BitVec 12
  busy : Bool                     -- the request before `next` has not yet taken effect
  waiting : List StreamReq
  deriving DecidableEq, Repr

/-- A window of the gate (R319). -/
structure Window16 where
  type : BitVec 2
  rd : Bool
  wr : Bool
  ord : Bool
  size : BitVec 6
  base : Addr
  target : Addr
  deriving DecidableEq, Repr

/-- HG_LAST_REFUSED (R319). -/
structure LastRefused where
  valid : Bool
  dir : Bool
  hit : Bool
  window : BitVec 4
  port : BitVec 3
  addr : BitVec 52
  deriving DecidableEq, Repr

/-- Transactions and the harbour gate (R299-R319). -/
structure Proto where
  reads : List Outst
  writes : List Outst
  waiting : List Post                          -- requests that wait for a tag, an identifier or their turn
  streams : List Stream
  ordSeq : List (Port × Nat × BitVec 12)       -- next OSEQ of outbound windows with ORD (R316)
  fence : BitVec 7
  pkgFeat : W32
  refused : W64
  lastRefused : LastRefused
  timeouts : W64
  memReread : W64
  memCrcfail : W64
  memWfail : W64
  pid : Vector W64 7
  pfeat : Vector W32 7
  windows : Vector (Vector Window16 16) 7
  stackWays : BitVec 2
  stackGran : BitVec 4
  stackSize : W64
  defTags : BitVec 8
  tagPeak : BitVec 15
  deriving DecidableEq, Repr

/-! ## Lagoon, shoal and ferries (07) -/

/-- Lagoon, shoal and context table of the chiplet (R219-R232, R239). -/
structure Memory where
  lagoon : Mem
  crcBad : List (Nat × BitVec 16)   -- blocks whose stored CRC differs from R224, with the difference
  poison : List Nat                 -- poisoned blocks, rising
  shoal : Mem
  ctx : Mem
  deriving DecidableEq, Repr

/-- A source row that a context reads from beyond the chiplet: pieces not yet asked for, pieces asked for,
pieces received, each by its offset in the row (R248). -/
structure RowBuf where
  row : Nat
  need : List (Nat × Nat)
  asked : Nat
  got : List (Nat × List Byte)
  deriving DecidableEq, Repr

/-- A context in an engine (R237-R245). `number` is none for a working context. -/
structure LoadedCtx where
  id : Nat
  number : Option Nat
  cluster : Option Nat       -- the cluster whose own engine runs it
  inst : Option (Region × SlotNo)   -- the instance of a working context
  tile : Option Nat
  c : FerryCtx
  rows : List RowBuf         -- source rows on their way, ascending
  acks : Nat                 -- writes not yet acknowledged
  bytes : Nat                -- bytes written by this run
  flags : BitVec 8           -- NONFINITE and SUBFLUSH of ADD, at their places in the record (R242, R246)
  keep : List Nat            -- N4 under TRANS: the elements of the even source row just moved (R43, R241)
  engine : Nat               -- which of its engines: region ferry 0-7, cluster ferry engine 0-3 (R237)
  moved : Nat                -- bytes of its reads and rows, for the turns of 4 KiB (R237)
  deriving DecidableEq, Repr

/-- A staged block: its pattern, block coordinates and slot (R197, R200). -/
structure Staged where
  inst : Region × SlotNo
  pat : Nat
  level : Nat
  coords : List Nat          -- driving region or cluster, then M, N, K, B1, B2; at L1: cluster, tile
  slot : Nat
  left : Nat                 -- contexts not yet done
  ids : List Nat             -- those contexts
  failed : BitVec 3          -- array CAUSE of a context that ended in error; 0 none (R145, R245)
  todo : List (Nat × FerryCtx)   -- engine and context of those that still wait for room (R237)
  used : List Nat            -- regions or clusters of which an issued tile used the block (R200, R204)
  deriving DecidableEq, Repr

/-- Region ferries, slice and router (R252). -/
structure RegFerry where
  queue : List Nat
  loaded : List LoadedCtx
  nextId : Nat
  tagCap : BitVec 15
  drops : W64
  bytes : W64
  staged : List Staged
  scrubPos : BitVec 21
  scrubEn : Bool
  scrubPeriod : BitVec 16
  reread : W64
  poisonCnt : W64
  lastPoison : Option (BitVec 24)
  links : BitVec 4
  sliceIn : W64
  mcCopies : W64
  deriving DecidableEq, Repr

/-! ## Rings, counters, instances (11, 06) -/

/-- A work counter (R206). -/
structure Counter where
  value : W64
  limit : W64
  deriving DecidableEq, Repr

/-- Which record of which ring, and where it lies; `era` counts the enablings of the ring, so that a
record outlives them (R354, R357). -/
structure RecRef where
  ring : RingNo
  n : W32
  era : Nat
  addr : Nat
  deriving DecidableEq, Repr

/-- A record issued and not counted in DONE (R354, R357). -/
structure OpenRec where
  n : W32
  era : Nat
  retired : Bool
  deriving DecidableEq, Repr

/-- An entry of the command trace: a record issued and its STATUS (R423). -/
structure TraceRec where
  ref : RecRef
  bytes : List Byte
  status : W64
  deriving DecidableEq, Repr

/-- A command ring (R353-R357, R363). `hold` is the record that holds the ring, with its bytes; `waits` the
instances that its PREEMPT BIND has stopped (R366). -/
structure Ring where
  base : Addr
  en : Bool
  prio : BitVec 2
  log2 : BitVec 5
  tail : W32
  head : W32
  done : W32
  rejects : BitVec 16
  opened : List OpenRec
  hold : Option (RecRef × List Byte)
  waits : List (Region × SlotNo)
  era : Nat
  deriving DecidableEq, Repr

/-- The fault ring of a region (R368). -/
structure FaultRing where
  base : Addr
  en : Bool
  log2 : BitVec 5
  wr : W32
  rd : W32
  lost : W32
  notifyEn : Bool
  notifyAddr : Addr
  deriving DecidableEq, Repr

/-- States of an instance (R360). -/
inductive InstState where
  | idle | bound | running | draining | stopped | faulted
  deriving DecidableEq, Repr

/-- A group of an instance (R186-R188, R371). -/
structure Group where
  g : Nat
  done : Bool              -- it drew the sentinel
  ahead : Option Nat       -- the index drawn and not yet in pass
  inPass : Option Nat      -- the tile in pass
  wb : List Nat            -- tiles computed and not yet written back in full
  redo : List Nat          -- redo entries still to compute (R372)
  lost : List Nat          -- tiles to redo after a fault (R371)
  deriving DecidableEq, Repr

/-- A chart instance (R360, R370-R372). -/
structure Inst where
  st : InstState
  reason : BitVec 4
  chartNo : BitVec 12
  chart : Option Chart
  args : List Byte
  bounds : List Nat
  ring : RingNo
  startRec : Option RecRef
  stopRec : Option RecRef
  displaced : Bool
  stopPending : Bool
  faulting : BitVec 4          -- REASON of a fault met, until the instance enters Faulted; 0 none
  recBase : Addr
  statAddr : Addr
  tiles : W64
  faults : W32
  firstTile : Option Nat
  redo : List Nat
  incomplete : Bool
  groups : List Group
  ranges : List (Nat × Nat)    -- FIRST and LIMIT of each counter entry as START set them
  deriving DecidableEq, Repr

/-- A record being issued (R356). -/
structure Current where
  ref : RecRef
  bytes : List Byte
  deriving DecidableEq, Repr

/-- One region (11, 07). -/
structure RegionSt where
  rings : Vector Ring 8
  counters : Vector Counter 128
  insts : Vector Inst 256
  flt : FaultRing
  current : Option Current
  turn : Vector RingNo 4       -- the ring of each PRIO served last (R356)
  mbox : Mem
  events : List W64
  trace : List TraceRec        -- the last 256 records issued, oldest first (R423)
  fy : RegFerry
  sram : Mem                   -- the controller's SRAM (R333)
  deriving DecidableEq, Repr

/-! ## Clusters (04, 05, 07) -/

/-- A cell of the array: products of the group in progress, chunk register, strict accumulator. -/
structure Cell where
  prods : List XVal
  c48 : IVal
  acc : BitVec 32
  deriving DecidableEq, Repr

/-- The tile in pass (R99, R119, R139). `step` counts K steps of the current slice pair and block. -/
structure Tile where
  index : Nat
  slot : Nat            -- its slot of the areas of R201
  geom : TileGeom
  kEnd : Nat            -- one past the last step of this position's slice
  block : Nat           -- first step of the block
  pair : Nat            -- index of the slice pair
  k : Nat               -- next step
  full : Bool           -- a chunk is complete and has not ended (R93)
  subflush : Bool
  cells : List Cell     -- in-bounds cells, row-major
  deriving DecidableEq, Repr

/-- The promotion of a chunk (R93, R124). -/
structure Promo where
  index : Nat
  slot : Nat
  geom : TileGeom
  row : Nat
  last : Bool
  shadow : List IVal
  accs : List (BitVec 32)
  longsum : Bool
  subflush : Bool
  deriving DecidableEq, Repr

/-- The drain of a tile's rows (R124, R135, R138). -/
structure Drain where
  index : Nat
  slot : Nat
  geom : TileGeom
  rows : List (List Nat)       -- element codes of drained rows
  hist : List Nat
  nf : Option (Nat × Nat)
  longsum : Bool
  subflush : Bool
  deriving DecidableEq, Repr

/-- A part of a row of a running sum: 16 records (R122, R293). -/
structure ChainPart where
  index : Nat
  row : Nat
  part : Nat
  recs : List IVal
  deriving DecidableEq, Repr

/-- A chain inbox: rows and trailers received; `due` lists the tiles whose trailer is still to come, in
the order issued (R122, R293). -/
structure ChainBuf where
  rows : List ChainPart
  trailers : List (Nat × BitVec 8)      -- tile index and flags
  due : List Nat
  deriving DecidableEq, Repr

/-- An entry of the tile queue (R153-R155). -/
structure QEntry where
  index : Nat
  slot : Nat
  geom : TileGeom
  fmt : Fmt
  rows : List (List Nat)
  longsum : Bool
  subflush : Bool
  nonfinite : Bool
  nf : Option (Nat × Nat)
  aborted : Bool
  hist : List Nat
  deriving DecidableEq, Repr

/-- A tile in the vector chain (R158-R162, R179-R181). -/
structure VcTile where
  e : QEntry
  pass : Nat
  started : Bool              -- the pass has begun and not ended
  beats : List (List Beat)    -- registers of each beat as the pass leaves them
  long : List (Option LongOp) -- a division or root of each beat, and the pass it began in (R178)
  longPass : Nat
  range : Bool
  sub : Bool
  shoalBad : Bool
  deriving DecidableEq, Repr

/-- A filled output slot: argument, tile, format; its elements stand in the shoal buffer (R163, R201, R209). -/
structure OutSlot where
  arg : Nat
  slot : Nat
  index : Nat
  geom : TileGeom
  fmt : Fmt
  poisoned : Bool
  hist : List Nat
  flags : BitVec 8
  nf : Option (Nat × Nat)
  deriving DecidableEq, Repr

/-- One logical cluster. -/
structure ClusterSt where
  inst : Option (Region × SlotNo)
  pos : Option Position
  mode : W32
  epi : W32
  issued : List Nat
  tile : Option Tile
  promo : Option Promo
  drain : Option Drain
  bank : List IVal
  chainIn : ChainBuf
  fault : Option (Nat × BitVec 3)   -- the tile of an input stream fault and its CAUSE (R145)
  lastIndex : W64
  tileStatus : W32
  passCc : W64
  waitCc : W64
  queue : List QEntry
  vc : Option VcTile
  vcCfg : W32
  vcLast : W64
  vcStatus : W32
  vcPasses : W64
  vcBusy : W64
  vcWait : W64
  consts : List Beat
  outs : List OutSlot
  turn : Nat                    -- tiles taken up since START, for the slots of R201
  engPattern : Vector (BitVec 8) 4
  fyBytes : W64
  shoalCe : W64
  shoalUe : W64
  deriving DecidableEq, Repr

/-! ## Power and thermal (12) -/

/-- The power states (R375). -/
inductive Power where
  | flood | slack | enterEbb | ebb | waking | off
  deriving DecidableEq, Repr

/-- PW_ and AO_ registers and what power control keeps (R375-R396). -/
structure PowerSt where
  st : Power
  regionsOn : BitVec 8
  clustersOn : BitVec 64
  waiting : List Nat
  slackDelay : BitVec 8
  clusterDelay : BitVec 8
  level : BitVec 4
  forced : Bool
  therm : Bool
  ctOver : Bool
  sensorFail : Bool
  safeOff : Bool
  ebbResult : BitVec 4
  ebbChip : BitVec 3
  ebbWhere : BitVec 8
  wakes : BitVec 8
  ebbStep : Nat
  wakeStep : Nat
  wakePending : BitVec 5       -- causes met during Ebb entry (R387)
  wakeDue : Bool               -- work reached the chiplet during Ebb entry: the wake begins at once (R387)
  regionsDue : BitVec 8        -- regions that work reached while no clock ran (R379, R385)
  offPending : Bool
  haltedRegions : BitVec 8
  haltedClusters : BitVec 64
  forcedCnt : W64
  deriving DecidableEq, Repr

/-- Sensors and the always-on controller (R388, R396). -/
structure AoSt where
  tmaxCtSensor : BitVec 5
  tmaxBtSensor : BitVec 5
  tmaxCt : BitVec 10
  tb : BitVec 12
  temps : Vector (Bool × BitVec 12) 64
  cc : W64
  timerEn : Bool
  timer : BitVec 48
  cause : BitVec 5
  trim : BitVec 16
  deriving DecidableEq, Repr

/-! ## Security and debug (13) -/

/-- An owner binding that this chiplet holds (R409). -/
structure Binding where
  count : W32
  ownerHash : List Byte
  floor : W64
  deriving DecidableEq, Repr

/-- SEC_ registers (R433). -/
structure Sec where
  level : BitVec 2
  levelMax : BitVec 2
  keysLive : Bool
  bindPending : Bool
  bindBad : Bool
  pkgAuth : Bool
  att : BitVec 2
  erased : Bool
  owned : Bool
  eraseMask : BitVec 7
  alarm : BitVec 8
  dbgResult : BitVec 4
  attResult : BitVec 4
  tokenFails : W32
  attDst : Addr
  leaf : BitVec 26
  devId : BitVec 256
  owner : BitVec 256
  nonce : BitVec 256
  attNonce : BitVec 256
  token : Mem
  deriving DecidableEq, Repr

/-- Prodom's vault and what alarms and debug keep (R397-R431). -/
structure Vault where
  seed : Option (BitVec 256)   -- identity seed in the vault, while keys are live
  latch : Option (BitVec 256)  -- seed latch (R404)
  puf : Nat                    -- which power-up of VDD_BT the PUF array holds the state of (R403)
  pufFresh : Bool
  btOff : Bool                 -- VDD_BT removed (R404)
  serial : W64
  binding : Option Binding
  blockHeld : W32              -- highest NEXT_BLOCK the AOC has held
  block : Option W32           -- block of indices in use
  tree : Nat                   -- bottom tree built last
  nextTree : Bool              -- the next bottom tree is built
  nonceValid : Bool
  drbg : Nat
  driving : Bool               -- ALARM_N driven by this chiplet
  locking : Bool               -- LOCK or ERASE under way
  lockSrcs : BitVec 8          -- sources counted in it (R435)
  zeroed : Bool                -- lagoon and shoal zeroed by it
  erasing : Bool
  zeroDue : Bool               -- zeroing waits for a clock (R431)
  debug3 : Bool                -- D3 opens once LOCK is complete (R427)
  overwrites : List W64        -- helper entries to overwrite here (R421)
  segments : BitVec 8          -- open segment insertion bits (R429)
  segBusy : BitVec 8
  tap : Nat                    -- instruments connected: level of the instruction selected
  attWait : Bool               -- a request waits for the next tree (R412)
  deriving DecidableEq, Repr

/-! ## Lifetime (14) -/

/-- The entry of a bundle (R436). -/
structure BundleLife where
  crcErr : W64
  replay : W64
  diags : W32
  spare : BitVec 16
  narrows : BitVec 16
  retires : BitVec 16
  mapdiff : BitVec 16
  deriving DecidableEq, Repr

/-- The counts (R434-R439). -/
structure Counts where
  general : Vector W64 64
  bundles : Vector BundleLife 82
  lanesTx : Vector (Vector Byte 37) 82
  lanesRx : Vector (Vector Byte 37) 82
  temp : Vector W64 512
  droop : Vector W64 176
  deriving DecidableEq, Repr

/-- LT_ registers and the flush (R440-R449). -/
structure Life where
  counts : Counts
  kept : Bool                 -- counts held since VDD_AO was applied
  held : Bool
  fresh : Bool
  busy : Bool
  logFail : Bool
  snapValid : Bool
  lastReason : BitVec 2
  flushes : BitVec 25
  floodCc : W64
  log : Mem                   -- the log area of a flash that the chiplet holds, inverted (R441)
  logSize : Nat               -- its bytes; 0 while none is known
  mirror : Bool               -- a member that holds a mirror log (R445)
  mirrorOff : Bool            -- this start ended in a yield with FLASH or IMG_FORMAT (R445)
  logWin : BitVec 17
  snap : List Byte
  reason : BitVec 2           -- reason of the flush under way
  snapLater : Bool            -- SNAP written while the lead collects (R448)
  alarmLater : Bool           -- an ALARM record follows the TOTALS records (R448)
  deriving DecidableEq, Repr

/-! ## The whole state -/

/-- The state of the block. -/
structure State where
  pk : Pk
  site : Site
  link : Link
  proto : Proto
  mem : Memory
  regions : Vector RegionSt 8
  clusters : Vector ClusterSt 64
  power : PowerSt
  ao : AoSt
  sec : Sec
  vault : Vault
  life : Life
  outbox : List Out
  freeCtr : Nat
  pending : List Instr
  deriving DecidableEq, Repr

/-! ## Reset values -/

/-- A direction before training (R290). -/
def LaneMap.reset : LaneMap := ⟨0, 2⟩

/-- A bundle at reset (R290). -/
def Bundle.reset : Bundle :=
  { state := 0, mapdiff := false, diags := 0, tx := LaneMap.reset, rx := LaneMap.reset, txNew := LaneMap.reset,
    rxNew := LaneMap.reset, txStart := 0, rxStart := 0, wide := false, txScr := Vector.replicate 32 0,
    rxScr := Vector.replicate 32 0, trk := 0, crcErr := 0,
    replay := 0, flitsRx := 0, step := 0, why := .training, mapSent := false, mapGot := false,
    nextSeq := 0, expSeq := 0, held := [], replays := 0, nakDue := false, nakFor := none,
    sinceNak := 0, badRun := 0, goodRun := 0, barren := [], lp := 0, diagAfter := false,
    alignBad := 0, added := false, diagCc := 0, placed := 0 }

/-- A port at reset (R290). -/
def PortSt.reset : PortSt :=
  { state := 0, capSent := false, capAcked := false, capGot := false, partner := [],
    sent := Vector.replicate 3 0, credit := Vector.replicate 3 0, freed := Vector.replicate 3 0,
    returned := Vector.replicate 3 0, txWait := [], inbox := [], payWait := [], retiring := [], ticks := 0 }

/-- The causeways at reset (R290). -/
def Link.reset : Link :=
  { replayTo := 256, bundles := Vector.replicate 82 Bundle.reset, ports := Vector.replicate 7 PortSt.reset }

/-- A window at reset (R319). -/
def Window16.reset : Window16 :=
  { type := 0, rd := false, wr := false, ord := false, size := 0, base := 0, target := 0 }

/-- HG_LAST_REFUSED cleared (R319). -/
def LastRefused.reset : LastRefused :=
  { valid := false, dir := false, hit := false, window := 0, port := 0, addr := 0 }

/-- Transactions and gate at reset (R253, R319). -/
def Proto.reset : Proto :=
  { reads := [], writes := [], waiting := [], streams := [], ordSeq := [], fence := 0x7F, pkgFeat := 0,
    refused := 0, lastRefused := LastRefused.reset, timeouts := 0, memReread := 0, memCrcfail := 0,
    memWfail := 0, pid := Vector.replicate 7 0, pfeat := Vector.replicate 7 0,
    windows := Vector.replicate 7 (Vector.replicate 16 Window16.reset), stackWays := 0, stackGran := 0,
    stackSize := 0, defTags := 4, tagPeak := 0 }

/-- Memories that nothing has written: every byte reads as zero (log 4). -/
def Memory.reset : Memory := { lagoon := [], crcBad := [], poison := [], shoal := [], ctx := [] }

/-- Region ferries and slice at reset (R252). -/
def RegFerry.reset : RegFerry :=
  { queue := [], loaded := [], nextId := 0, tagCap := 16384, drops := 0, bytes := 0, staged := [],
    scrubPos := 0, scrubEn := true, scrubPeriod := 512, reread := 0, poisonCnt := 0, lastPoison := none,
    links := 0, sliceIn := 0, mcCopies := 0 }

/-- A ring at reset (R374). -/
def Ring.reset : Ring :=
  { base := 0, en := false, prio := 0, log2 := 4, tail := 0, head := 0, done := 0, rejects := 0,
    opened := [], hold := none, waits := [], era := 0 }

/-- A fault ring at reset (R374). -/
def FaultRing.reset : FaultRing :=
  { base := 0, en := false, log2 := 4, wr := 0, rd := 0, lost := 0, notifyEn := false, notifyAddr := 0 }

/-- An idle instance slot (R360, R374). -/
def Inst.reset : Inst :=
  { st := .idle, reason := 0, chartNo := 0, chart := none, args := [], bounds := [], ring := 0,
    startRec := none, stopRec := none, displaced := false, stopPending := false, faulting := 0, recBase := 0,
    statAddr := 0, tiles := 0, faults := 0, firstTile := none, redo := [], incomplete := false,
    groups := [], ranges := [] }

/-- A region at reset (R374). -/
def RegionSt.reset : RegionSt :=
  { rings := Vector.replicate 8 Ring.reset, counters := Vector.replicate 128 ⟨0, 0⟩,
    insts := Vector.replicate 256 Inst.reset, flt := FaultRing.reset, current := none,
    turn := Vector.replicate 4 7, mbox := [],
    events := [], trace := [], fy := RegFerry.reset, sram := [] }

/-- An empty chain buffer. -/
def ChainBuf.empty : ChainBuf := ⟨[], [], []⟩

/-- A cluster at reset (R148, R183, R251). -/
def ClusterSt.reset : ClusterSt :=
  { inst := none, pos := none, mode := 0, epi := 0, issued := [], tile := none, promo := none,
    drain := none, bank := [], chainIn := ChainBuf.empty, fault := none,
    lastIndex := BitVec.allOnes 64, tileStatus := 0, passCc := 0, waitCc := 0, queue := [], vc := none,
    vcCfg := 0, vcLast := BitVec.allOnes 64, vcStatus := 0, vcPasses := 0, vcBusy := 0, vcWait := 0,
    consts := [0, 0, 0, 0], outs := [], turn := 0, engPattern := Vector.replicate 4 0, fyBytes := 0, shoalCe := 0,
    shoalUe := 0 }

/-- Power control at reset (R396). -/
def PowerSt.reset : PowerSt :=
  { st := .slack, regionsOn := 0, clustersOn := 0, waiting := [], slackDelay := 16, clusterDelay := 4,
    level := 0, forced := false, therm := false, ctOver := false, sensorFail := false, safeOff := false,
    ebbResult := 0, ebbChip := 0, ebbWhere := 0, wakes := 0, ebbStep := 0, wakeStep := 0,
    wakePending := 0, wakeDue := false, regionsDue := 0, offPending := false, haltedRegions := 0, haltedClusters := 0,
    forcedCnt := 0 }

/-- Sensors and always-on controller at reset (R396). -/
def AoSt.reset : AoSt :=
  { tmaxCtSensor := 0, tmaxBtSensor := 0, tmaxCt := 0, tb := 0, temps := Vector.replicate 64 (false, 0),
    cc := 0, timerEn := false, timer := 0, cause := 0, trim := 0 }

/-- SEC_ registers at reset (R433). -/
def Sec.reset : Sec :=
  { level := 0, levelMax := 0, keysLive := false, bindPending := false, bindBad := false,
    pkgAuth := false, att := 3, erased := false, owned := false, eraseMask := 0, alarm := 0,
    dbgResult := 0, attResult := 0, tokenFails := 0, attDst := 0, leaf := 0, devId := 0, owner := 0,
    nonce := 0, attNonce := 0, token := [] }

/-- Prodom with its rails just applied (R404). -/
def Vault.reset : Vault :=
  { seed := none, latch := none, puf := 0, pufFresh := true, btOff := false, serial := 0, binding := none, blockHeld := 0,
    block := none, tree := 0, nextTree := false, nonceValid := false, drbg := 0, driving := false,
    locking := false, lockSrcs := 0, zeroed := false, erasing := false, zeroDue := false, debug3 := false,
    overwrites := [], segments := 0, segBusy := 0, tap := 0, attWait := false }

/-- No counts (R434, R440). -/
def Counts.zero : Counts :=
  { general := Vector.replicate 64 0, bundles := Vector.replicate 82 ⟨0, 0, 0, 0, 0, 0, 0⟩,
    lanesTx := Vector.replicate 82 (Vector.replicate 37 0),
    lanesRx := Vector.replicate 82 (Vector.replicate 37 0), temp := Vector.replicate 512 0,
    droop := Vector.replicate 176 0 }

/-- LT_ registers at reset (R449). -/
def Life.reset : Life :=
  { counts := Counts.zero, kept := false, held := false, fresh := false, busy := false, logFail := false,
    snapValid := false, lastReason := 0, flushes := 0, floodCc := 0, log := [], logSize := 0,
    mirror := false, mirrorOff := false, logWin := 0, snap := [], reason := 0, snapLater := false, alarmLater := false }

/-- PK_ registers at reset (R352); STRAP not yet sampled reads as 0 (log 4). -/
def Pk.reset : Pk :=
  { phase := .inReset, stepping := 0xA1, grade := false, acting := false, yielded := false, lead := false,
    strap := 0, idValid := false, id := 0, running := false, cold := false, step := 0,
    halt := ⟨false, 0, 0, 0⟩, aoTrimmed := false, refclkOk := false, pllLock := false, upPort := 0xF,
    tree := false, powerOn := 0, startTime := 0, steps := 0, imgBase := 0, imageSeq := 0, route := 0,
    rstLow := true, pwrLow := true }

/-- Nothing settled yet. -/
def Site.reset : Site :=
  { regions := Vector.replicate 8 ⟨0, 0, 0⟩, bonds := [], vct := 0, fwStarted := 0,
    fwReady := 0, found := [], stackBad := 0, image := [] }

/-- The block with its rails applied and held in reset: every register at the value its chapter gives. -/
def State.reset : State :=
  { pk := Pk.reset, site := Site.reset, link := Link.reset, proto := Proto.reset, mem := Memory.reset,
    regions := Vector.replicate 8 RegionSt.reset, clusters := Vector.replicate 64 ClusterSt.reset,
    power := PowerSt.reset, ao := AoSt.reset, sec := Sec.reset, vault := Vault.reset, life := Life.reset,
    outbox := [], freeCtr := 0, pending := [] }

end Sys2Proof.Machine
end

