-- ==== Sys2Proof/Machine/Ops.lean ====
section
/-! DEFINITION. The operations that commands share: parts of the state, counts, lagoon blocks, shoal
words, fault records and accesses by package address. -/

namespace Sys2Proof.Machine

/-! ## Parts of the state -/

/-- Entry `i` of a vector passed through `f`. -/
def vmod {α : Type} {n : Nat} (v : Vector α n) (i : Fin n) (f : α → α) : Vector α n :=
  v.set i.1 (f (v.get i)) i.2

/-- Index of logical cluster `c` of region `r`: control block 8r + c (R221). -/
def clIdx (r : Region) (c : Cluster) : Fin 64 := ⟨8 * r.1 + c.1, by omega⟩

/-- Region of a cluster index. -/
def clRegion (k : Fin 64) : Region := ⟨k.1 / 8, by omega⟩

/-- A number taken as an index below `n + 1`, modulo it. -/
def fin (n : Nat) (x : Nat) : Fin (n + 1) := Fin.ofNat (n + 1) x

/-- Bit `i` of a bit vector replaced. -/
def setBit {w : Nat} (b : BitVec w) (i : Nat) (v : Bool) : BitVec w :=
  if v then b ||| BitVec.ofNat w (2 ^ i) else b &&& ~~~(BitVec.ofNat w (2 ^ i))

/-- Region `r` passed through `f`. -/
def State.onRegion (s : State) (r : Region) (f : RegionSt → RegionSt) : State :=
  { s with regions := vmod s.regions r f }

/-- Cluster `k` passed through `f`. -/
def State.onCluster (s : State) (k : Fin 64) (f : ClusterSt → ClusterSt) : State :=
  { s with clusters := vmod s.clusters k f }

/-- Ring `i` of region `r` passed through `f`. -/
def State.onRing (s : State) (r : Region) (i : RingNo) (f : Ring → Ring) : State :=
  s.onRegion r fun x => { x with rings := vmod x.rings i f }

/-- Instance `k` of region `r` passed through `f`. -/
def State.onInst (s : State) (r : Region) (k : SlotNo) (f : Inst → Inst) : State :=
  s.onRegion r fun x => { x with insts := vmod x.insts k f }

/-- Ferries and slice of region `r` passed through `f`. -/
def State.onFerry (s : State) (r : Region) (f : RegFerry → RegFerry) : State :=
  s.onRegion r fun x => { x with fy := f x.fy }

/-- Bundle `b` passed through `f`. -/
def State.onBundle (s : State) (b : BundleNo) (f : Bundle → Bundle) : State :=
  { s with link := { s.link with bundles := vmod s.link.bundles b f } }

/-- Port `p` passed through `f`. -/
def State.onPort (s : State) (p : Port) (f : PortSt → PortSt) : State :=
  { s with link := { s.link with ports := vmod s.link.ports p f } }

/-- Ring `i` of region `r`. -/
def State.ring (s : State) (r : Region) (i : RingNo) : Ring := (s.regions.get r).rings.get i

/-- Instance `k` of region `r`. -/
def State.inst (s : State) (r : Region) (k : SlotNo) : Inst := (s.regions.get r).insts.get k

/-- Cluster `c` of region `r`. -/
def State.cluster (s : State) (r : Region) (c : Cluster) : ClusterSt := s.clusters.get (clIdx r c)

/-- Something sent (log 1). -/
def State.emit (s : State) (o : Out) : State := { s with outbox := s.outbox ++ [o] }

/-- The chiplet is Alarmed (R408, R422). -/
def State.alarmed (s : State) : Bool := s.sec.alarm != 0

/-- Region domain `r` is clocked (R376). -/
def State.regionOn (s : State) (r : Region) : Bool := s.power.regionsOn.getLsbD r.1

/-- Cluster domain `k` is clocked and not halted for debug (R376, R423). -/
def State.clusterOn (s : State) (k : Fin 64) : Bool :=
  s.power.clustersOn.getLsbD k.1 && !s.power.haltedClusters.getLsbD k.1 && !s.power.forced

/-- The controller and ferries of region `r` act: clocked, no alarm, not in forced Slack, not halted (R367, R376,
R392, R423). -/
def State.regionActs (s : State) (r : Region) : Bool :=
  !s.alarmed && s.regionOn r && !s.power.forced && !s.power.haltedRegions.getLsbD r.1

/-- Domains run in Flood and Slack only (R375). -/
def PowerSt.runs (p : PowerSt) : Bool := p.st == .flood || p.st == .slack

/-- Flood while some region is clocked, Slack while none is (R375). -/
def PowerSt.settle (p : PowerSt) : PowerSt :=
  if p.st = .flood ∨ p.st = .slack then { p with st := if p.regionsOn = 0 then .slack else .flood } else p

/-- The PLL runs, in Flood or Slack: domains can be clocked (R375, R376). -/
def State.clocks (s : State) : Bool := s.power.runs && s.pk.pllLock

/-- Work reaches region `r`: a stopped region's clock starts, and the work proceeds; where no clock runs the
region starts with the wake, which work in Ebb entry brings on at once (R379, R385, R387; log 144). -/
def State.wakeRegion (s : State) (r : Region) : State :=
  let p := s.power
  if s.regionOn r then s
  else if s.clocks then { s with power := { p with regionsOn := setBit p.regionsOn r.1 true }.settle }
  else { s with power := { p with regionsDue := setBit p.regionsDue r.1 true, wakeDue := p.wakeDue || p.st == .enterEbb } }

/-- Logical cluster `c` of region `r` exists at this start (R23). -/
def State.present (s : State) (r c : Nat) : Bool :=
  decide (c < ((s.site.regions.get (fin 7 r)).clusters).toNat)

/-! ## Lifetime counts (R434, R435) -/

/-- General count `i` grows by `n` and stops at its largest value (R434, R435). -/
def State.count (s : State) (i : Fin 64) (n : Nat) : State :=
  { s with life := { s.life with counts := { s.life.counts with
      general := vmod s.life.counts.general i fun x => BitVec.ofNat 64 (satAdd 64 x.toNat n) } } }

/-- Bundle entry `b` of the lifetime counts passed through `f` (R436). -/
def State.onBundleLife (s : State) (b : BundleNo) (f : BundleLife → BundleLife) : State :=
  { s with life := { s.life with counts := { s.life.counts with
      bundles := vmod s.life.counts.bundles b f } } }

/-- A 16-bit count that stops at its largest value (R434). -/
def sat16 (x : BitVec 16) (n : Nat) : BitVec 16 := BitVec.ofNat 16 (satAdd 16 x.toNat n)

/-- A 64-bit count that stops at its largest value (R434). -/
def sat64 (x : W64) (n : Nat) : W64 := BitVec.ofNat 64 (satAdd 64 x.toNat n)

/-! ## A command's own environment -/

/-- The state and what is left of the command's operand `Env`. -/
structure W where
  s : State
  env : Env

/-- The state passed through `f`. -/
def W.on (w : W) (f : State → State) : W := { w with s := f w.s }

/-- The next answer from beyond the chiplet; TIMEOUT when the operand gives none (R301). -/
def W.answer (w : W) : W × Rsp :=
  match w.env.ext with
  | [] => (w, ⟨.timeout, [], 0⟩)
  | a :: rest => ({ w with env := { w.env with ext := rest } }, a)

/-! ## Addresses (R215-R221) -/

/-- Where a package address leads. -/
inductive Place where
  | lagoon (off : Nat)
  | shoal (k off : Nat)        -- cluster 8r + c and offset in its buffer
  | ctx (off : Nat)
  | control (blk off : Nat)
  | stack (off : Nat)
  | away                       -- another chiplet, or harbour space
  | hole                       -- an unpopulated offset
  deriving DecidableEq, Repr

/-- CHIP of a package address (R215). -/
def addrChip (a : Nat) : Nat := field a 52 3

/-- The place of a package address (R215, R218, R219). -/
def State.locate (s : State) (a : Nat) : Place :=
  let off := field a 0 51
  if testBit a 55 || addrChip a != s.pk.id.toNat then .away
  else if !testBit a 51 then (if off < s.proto.stackSize.toNat then .stack off else .hole)
  else
    let hi := off / 2 ^ 32
    let lo := off % 2 ^ 32
    match hi with
    | 0 => if lo < 0x40000000 then .lagoon lo else .hole
    | 1 => if lo < 0x10000000 then .shoal (lo / 0x400000) (lo % 0x400000) else .hole
    | 2 => if lo < 0x1000000 then .ctx lo else .hole
    | 3 => if lo < 0x1000000 then .control (lo / 0x10000) (lo % 0x10000) else .hole
    | _ => .hole

/-- The place of `n` bytes from a package address on: bytes that do not all lie in one place, or lie partly
beyond the populated offsets, are unpopulated as a whole (R220). -/
def State.locateN (s : State) (a n : Nat) : Place :=
  let last := s.locate (a + n - 1)
  match s.locate a, last with
  | .lagoon x, .lagoon _ => .lagoon x
  | .shoal k x, .shoal _ _ => .shoal k x
  | .ctx x, .ctx _ => .ctx x
  | .control b x, .control .. => .control b x
  | .stack x, .stack _ => .stack x
  | .away, .away => .away
  | p, _ => if n ≤ 1 then p else .hole

/-! ## Ways out of the chiplet (R216, R217, R334, R316) -/

/-- A peer port of the four sides (R254). -/
def isPeer (p : Port) : Bool := decide (2 ≤ p.1) && decide (p.1 ≤ 5)

/-- A memory port (R254). -/
def isMemory (p : Port) : Bool := decide (p.1 < 2)

/-- The port `p`. -/
def State.port (s : State) (p : Port) : PortSt := s.link.ports.get p

/-- A port that carries requests: up, or asleep (R290). -/
def State.portUp (s : State) (p : Port) : Bool := (s.port p).state == 2 || (s.port p).state == 3

/-- The peer port that leads to a chiplet, when the route is valid (R334). -/
def State.routePort (s : State) (d : Nat) : Option Port :=
  let e := field s.pk.route.toNat (3 * d) 3
  if testBit e 2 then some (fin 6 (2 + e % 4)) else none

/-- Way and stack address of an offset (R217). The reserved code 0b11 of WAYS acts as two-way (log 16), a
GRAN of 9 to 15 as the formula gives (DESIGN CHOICE, log 133). -/
def State.stackPlace (s : State) (off : Nat) : Port × Nat :=
  let g := 2 ^ (8 + s.proto.stackGran.toNat)
  if s.proto.stackWays = 1 then (0, off)
  else if s.proto.stackWays = 2 then (1, off)
  else (if off / g % 2 = 0 then 0 else 1, off / (2 * g) * g + off % g)

/-- A window holds an address (R315, R316). -/
def Window16.hit (w : Window16) (a : Nat) : Bool :=
  decide (w.base.toNat ≤ a) && decide (a < w.base.toNat + 2 ^ w.size.toNat)

/-- A window of a port. -/
def State.window (s : State) (p : Port) (w : Nat) : Window16 := (s.proto.windows.get p).get (fin 15 w)

/-- The lowest (port, window) outbound window that holds an offset of harbour space, over fenced peer
ports and the harbour port (R316). -/
def State.outbound (s : State) (off : Nat) : Option (Port × Nat) :=
  ((List.range 80).map fun n => (fin 6 (2 + n / 16), n % 16)).find? fun x =>
    let w := s.window x.1 x.2
    s.proto.fence.getLsbD x.1.1 && w.type == 2 && w.hit off

/-- Where a request leaves the chiplet: port, address there, and the window whose stream it joins (R316). -/
structure Way where
  port : Port
  addr : Nat
  ord : Option Nat
  deriving DecidableEq, Repr

/-- How an access beyond lagoon, shoal and context table leaves: by a way, not at all because the port is down
or no route leads there, or refused by the gate: whether a window matched, which, and its port. -/
inductive Leave where
  | way (x : Way)
  | down
  | refused (hit : Bool) (win : Nat) (p : Port)
  deriving DecidableEq, Repr

/-- The permission that a window gives to reads, to writes, or to ATOMs, which need both (R315, R316). -/
inductive Access where
  | read | write | atom
  deriving DecidableEq, Repr

/-- A window permits an access (R315, R316). -/
def Window16.permits (w : Window16) : Access → Bool
  | .read => w.rd
  | .write => w.wr
  | .atom => w.rd && w.wr

/-- The way of an access to a package address: the route to another chiplet, an outbound window, or a stack
(R216, R217, R283, R316, R334). -/
def State.leave (s : State) (a : Nat) (k : Access) : Leave :=
  let via := fun x : Way => if s.portUp x.port then Leave.way x else .down
  if addrChip a ≠ s.pk.id.toNat then
    match s.routePort (addrChip a) with
    | some p => via ⟨p, a, none⟩
    | none => .down
  else if testBit a 55 then
    match s.outbound (field a 0 52) with
    | none => .refused false 0 0
    | some (p, n) =>
      let x := s.window p n
      if x.permits k then
        via ⟨p, (x.target.toNat + (field a 0 52 - x.base.toNat)) % 2 ^ 56, if x.ord then some n else none⟩
      else .refused true n p
  else via ⟨(s.stackPlace (field a 0 51)).1, (s.stackPlace (field a 0 51)).2, none⟩

/-- The next place in the stream of a window with ORD; window `k` uses OSTR k + 1 (R316, log 23). -/
def State.numbered (s : State) (x : Way) : State × BitVec 8 × BitVec 12 :=
  match x.ord with
  | none => (s, 0, 0)
  | some k =>
    let key := fun (y : Port × Nat × BitVec 12) => y.1 == x.port && y.2.1 == k
    let n := ((s.proto.ordSeq.find? key).map (·.2.2)).getD 0
    let rest := s.proto.ordSeq.filter fun y => !key y
    ({ s with proto := { s.proto with ordSeq := rest ++ [(x.port, k, n + 1)] } }, BitVec.ofNat 8 (k + 1), n)

/-- A refusal counted and kept in HG_LAST_REFUSED (R314, R319). -/
def State.noteRefused (s : State) (dir hit : Bool) (win : Nat) (p : Port) (a : Nat) : State :=
  let last : LastRefused :=
    { valid := true, dir := dir, hit := hit, window := if hit then BitVec.ofNat 4 win else 0,
      port := BitVec.ofNat 3 p.1, addr := BitVec.ofNat 52 a }
  { s with proto := { s.proto with refused := s.proto.refused + 1, lastRefused := last } }

/-- Pieces of `n` bytes at `a` that stay inside aligned 256-byte blocks, as (offset, length) (R217, R297). -/
def pieces (a n : Nat) : Nat → Nat → List (Nat × Nat)
  | 0, _ => []
  | fuel + 1, off =>
    if n ≤ off then []
    else
      let k := min (n - off) (256 - (a + off) % 256)
      (off, k) :: pieces a n fuel (off + k)

/-! ## Requests answered within a command (R297, R301, R310; log 136) -/

/-- The CRCs that go with a stack's data, CRC i at bits [16i + 15:16i] (R297, R310). -/
def stackCrcs (adr : Nat) (data : List Byte) : Nat :=
  (List.range (data.length / 64)).foldl (fun x i =>
    x + place (stackCrc ((data.drop (64 * i)).take 64) (adr + 64 * i)) (16 * i) 16) 0

/-- Every CRC of a read response matches (R310). -/
def stackCrcsOk (adr : Nat) (data : List Byte) (crcs : Nat) : Bool :=
  stackCrcs adr data == crcs % 2 ^ (16 * (data.length / 64))

/-- A request that had no answer in 8,000 cycles, counted (R301). -/
def State.timedOut (s : State) : State := { s with proto := { s.proto with timeouts := s.proto.timeouts + 1 } }

/-- An MRD sent again after a CRC mismatch, counted (R310). -/
def State.memReread (s : State) : State :=
  ({ s with proto := { s.proto with memReread := s.proto.memReread + 1 } }).count 27 1

/-- A stack read whose second response mismatches too, counted (R310). -/
def State.memCrcFailed (s : State) : State :=
  ({ s with proto := { s.proto with memCrcfail := s.proto.memCrcfail + 1 } }).count 28 1

/-- A failed MWR counted (R310). -/
def State.memWriteFailed (s : State) : State :=
  ({ s with proto := { s.proto with memWfail := s.proto.memWfail + 1 } }).count 62 1

/-- The most tags held since the last read, with `n` held now (R253). -/
def State.notePeak (s : State) (n : Nat) : State :=
  if s.proto.tagPeak.toNat < n then { s with proto := { s.proto with tagPeak := BitVec.ofNat 15 n } } else s

/-- One request sent and answered: TIMEOUT is counted, and a read holds a tag meanwhile (R248, R301). -/
def W.ask (w : W) (x : Post) : W × Rsp :=
  let held := w.s.proto.reads.length + 1
  let y := (w.on fun s => (if x.op = 1 then s.notePeak held else s).emit (.request x)).answer
  (if y.2.st = .timeout then y.1.on (·.timedOut) else y.1, y.2)

/-- A request of the chiplet's own through a way, numbered where its window is ordered (R316). -/
def W.askWay (w : W) (x : Way) (op len : Nat) (data : List Byte) (op0 : W64) : W × Rsp :=
  let y := w.s.numbered x
  (w.on fun _ => y.1).ask
    { port := x.port, op := op, atop := 0, addr := x.addr, len := len, data := data, op0 := op0, op1 := 0,
      ostr := y.2.1, oseq := y.2.2, use_ := .own }

/-- Whole blocks of a stack read: a CRC mismatch sends the MRD once more, a second one fails the read (R310). -/
def W.askBlocks (w : W) (x : Way) (n : Nat) : W × Status × List Byte :=
  let cut := fun (y : Rsp) => (y.data ++ List.replicate n 0).take n
  let y := w.askWay x 1 n [] 0
  if y.2.st ≠ .ok then (y.1, y.2.st, List.replicate n 0)
  else if stackCrcsOk x.addr (cut y.2) y.2.crcs.toNat then (y.1, .ok, cut y.2)
  else
    let z := (y.1.on (·.memReread)).askWay x 1 n [] 0
    if z.2.st ≠ .ok then (z.1, z.2.st, List.replicate n 0)
    else if stackCrcsOk x.addr (cut z.2) z.2.crcs.toNat then (z.1, .ok, cut z.2)
    else (z.1.on (·.memCrcFailed), .error, List.replicate n 0)

/-- One piece read through a way; a stack is read in whole blocks (R297, R310). -/
def W.askRead (w : W) (x : Way) (n : Nat) : W × Status × List Byte :=
  if isMemory x.port then
    let lo := x.addr / 64 * 64
    let y := w.askBlocks { x with addr := lo } ((x.addr + n + 63) / 64 * 64 - lo)
    (y.1, y.2.1, (y.2.2.drop (x.addr - lo)).take n)
  else
    let y := w.askWay x 1 n [] 0
    (y.1, y.2.st, (if y.2.st = .ok then y.2.data ++ List.replicate n 0 else List.replicate n 0).take n)

/-- Whole blocks written to a stack: ERROR sends the MWR once more, and a failure is counted (R310). -/
def W.putBlocks (w : W) (x : Way) (bs : List Byte) : W × Status :=
  let y := w.askWay x 2 bs.length bs 0
  let z := if y.2.st = .error then y.1.askWay x 2 bs.length bs 0 else y
  (if z.2.st = .ok then z.1 else z.1.on (·.memWriteFailed), z.2.st)

/-- One piece written through a way; a part of a stack block is read, merged and written (R297, R310). -/
def W.askWrite (w : W) (x : Way) (bs : List Byte) : W × Status :=
  if !isMemory x.port then
    let y := w.askWay x 2 bs.length bs 0
    (y.1, y.2.st)
  else if x.addr % 64 = 0 ∧ bs.length % 64 = 0 then w.putBlocks x bs
  else
    let lo := x.addr / 64 * 64
    let n := (x.addr + bs.length + 63) / 64 * 64 - lo
    let y := w.askBlocks { x with addr := lo } n
    if y.2.1 ≠ .ok then (y.1, y.2.1)
    else y.1.putBlocks { x with addr := lo }
      (y.2.2.take (x.addr - lo) ++ bs ++ y.2.2.drop (x.addr - lo + bs.length))

/-- Package address of an offset of this chiplet's on-chiplet space (R215, R219). -/
def State.onChip (s : State) (off : Nat) : Nat := place s.pk.id.toNat 52 3 + 2 ^ 51 + off

/-- The image area: the top 256 MiB of the populated stack space (R340). -/
def State.inImage (s : State) (off n : Nat) : Bool :=
  let size := s.proto.stackSize.toNat
  s.pk.imgBase != 0 && decide (size < off + n + 0x10000000)

/-! ## Lagoon blocks (R222-R229) -/

/-- Region whose slice holds a block (R219, R224). -/
def blockRegion (b : Nat) : Region := fin 7 (b / 2 ^ 21)

/-- Data of a block. -/
def State.blockData (s : State) (b : Nat) : List Byte := memReadN s.mem.lagoon (64 * b) 64

/-- The stored CRC of a block differs from that of R224. -/
def State.crcWrong (s : State) (b : Nat) : Bool := s.mem.crcBad.any (·.1 == b)

/-- The poison bit of a block (R224). -/
def State.poisoned (s : State) (b : Nat) : Bool := s.mem.poison.contains b

/-- Bytes stored at a lagoon offset, with a fresh CRC for each block: nothing else changes. -/
def State.lagoonPut (s : State) (off : Nat) (bs : List Byte) : State :=
  let lo := off / 64
  let hi := (off + bs.length + 63) / 64
  { s with mem := { s.mem with
      lagoon := memWriteN s.mem.lagoon off bs,
      crcBad := s.mem.crcBad.filter fun x => decide (x.1 < lo) || decide (hi ≤ x.1) } }

/-- The poison bit of block `b` cleared. -/
def State.unpoison (s : State) (b : Nat) : State :=
  { s with mem := { s.mem with poison := setErase b s.mem.poison } }

/-- A whole block stored with a fresh CRC and its poison bit cleared (R227). -/
def State.blockPut (s : State) (b : Nat) (bs : List Byte) : State := (s.lagoonPut (64 * b) bs).unpoison b

/-- Zeros with valid CRCs in every lagoon block (R229). The manual does not name the poison bits there:
a whole-block write clears them (R227). -/
def State.zeroLagoon (s : State) : State :=
  { s with mem := { s.mem with lagoon := [], crcBad := [], poison := [] } }

/-- Zeros with valid codes in every shoal word (R232). -/
def State.zeroShoal (s : State) : State := { s with mem := { s.mem with shoal := [] } }

/-- Bytes stored into a shoal buffer. -/
def State.shoalPut (s : State) (k off : Nat) (bs : List Byte) : State :=
  { s with mem := { s.mem with shoal := memWriteN s.mem.shoal (k * 0x400000 + off) bs } }

/-! ## Fault records (R368, R369) -/

/-- The fields of a fault record that its source gives (R369). Absent ones hold what R369 says. -/
structure FaultRec where
  source : Nat
  cause : Nat
  region : Nat
  cluster : Nat := 0xF
  inst : Nat := 0x7FF
  tile : Nat := 2 ^ 64 - 1
  addr : Nat := 0
  detail : Nat := 0
  deriving DecidableEq, Repr

/-- The 64 bytes of record `n` (R369). -/
def State.faultBytes (s : State) (n : Nat) (f : FaultRec) : List Byte :=
  natToBytes 64 (place n 448 64 + place s.ao.cc.toNat 400 48 + place f.source 392 8 + place f.cause 384 8 +
    place s.pk.id.toNat 381 3 + place f.region 378 3 + place f.cluster 374 4 + place f.inst 363 11 +
    place f.tile 288 64 + place f.addr 232 56 + place f.detail 192 32)

/-- LOG2SIZE: values outside 4-16 act as the nearest (R374). -/
def ringSize (log2 : BitVec 5) : Nat := 2 ^ (min (max log2.toNat 4) 16)

/-- 64 bytes of the chiplet's own written beyond it. A refusal is counted, and writes no record: the record
itself is what could not be written (log 135). -/
def W.leave64 (w : W) (a : Nat) (bs : List Byte) : W × Bool :=
  match w.s.leave a .write with
  | .way x =>
    let y := w.askWrite x bs
    (y.1, y.2 == .ok)
  | .down => (w, false)
  | .refused hit k p => (w.on (·.noteRefused true hit k p (field a 0 52)), false)

/-- Bytes that reach a slice through its router port (R222, R252). -/
def State.sliceIn (s : State) (off n : Nat) : State :=
  s.onFerry (fin 7 (off / 2 ^ 27)) fun y => { y with sliceIn := y.sliceIn + BitVec.ofNat 64 n }

/-- A cluster that is not clocked joins those that wait for a start slot, oldest event first (R377, R379); in Ebb
entry the wake begins at once (R387). -/
def State.wakeCluster (s : State) (k : Nat) : State :=
  let p := s.power
  if p.clustersOn.getLsbD k || p.waiting.contains k then s
  else { s with power := { p with waiting := p.waiting ++ [k], wakeDue := p.wakeDue || p.st == .enterEbb } }

/-- A 64-byte write of the chiplet's own to an aligned address; whether it took effect. A poisoned
lagoon block fails it (R368). -/
def W.write64 (w : W) (a : Nat) (bs : List Byte) : W × Bool :=
  match w.s.locate a with
  | .lagoon off =>
    if w.s.poisoned (off / 64) then (w, false)
    else (w.on fun s => ((s.wakeRegion (blockRegion (off / 64))).blockPut (off / 64) bs).sliceIn off 64, true)
  | .ctx off => (w.on fun s => { s with mem := { s.mem with ctx := memWriteN s.mem.ctx off bs } }, true)
  | .stack off => if w.s.inImage off 64 then (w, false) else w.leave64 a bs
  | .away => w.leave64 a bs
  | .shoal k off =>
    if w.s.present (k / 8) (k % 8) then (w.on fun s => (s.shoalPut k off bs).wakeCluster k, true)
    else (w, false)
  | _ => (w, false)

/-- A fault record lost (R368). -/
def State.faultLost (s : State) (r : Region) : State :=
  (s.onRegion r fun x => { x with flt := { x.flt with lost := x.flt.lost + 1 } }).count 31 1

/-- Region and slot under which this chiplet keeps the instance of an 11-bit name (R360; log 142). -/
def State.instOf (s : State) (name : Nat) : Option (Region × SlotNo) :=
  if name < 2047 then
    some (fin 7 (field name 5 3), fin 255 (32 * ((field name 8 3 + 8 - s.pk.id.toNat) % 8) + field name 0 5))
  else none

/-- The 11-bit name of an instance (R360). -/
def State.instName (s : State) (r : Region) (k : SlotNo) : Nat :=
  place ((s.pk.id.toNat + k.1 / 32) % 8) 8 3 + place r.1 5 3 + k.1 % 32

/-- The DBELL of a NOTIFY: through a way, or to this chiplet itself, where it comes back as a DBELL (R368,
log 135). A status other than OK has no effect. -/
def W.bell (w : W) (a : Nat) (v : W64) : W :=
  if testBit a 55 || addrChip a != w.s.pk.id.toNat then
    match w.s.leave a .write with
    | .way x => (w.askWay x 5 8 [] v).1
    | .down => w
    | .refused hit k p => w.on (·.noteRefused true hit k p (field a 0 52))
  else w.on (·.emit (.dbell a v))

/-- A fault record written into region `r`'s fault ring, or lost (R368). -/
def W.fault (w : W) (r : Region) (f : FaultRec) : W :=
  let q := (w.s.regions.get r).flt
  if !q.en || (q.wr - q.rd).toNat == ringSize q.log2 then w.on (·.faultLost r)
  else
    let n := q.wr.toNat
    let x := w.write64 (q.base.toNat + 64 * (n % ringSize q.log2)) (w.s.faultBytes n f)
    if !x.2 then x.1.on (·.faultLost r)
    else
      let w1 := x.1.on fun s =>
        (s.onRegion r fun y => { y with flt := { y.flt with wr := y.flt.wr + 1 } }).count 30 1
      let w2 := if q.notifyEn then w1.bell q.notifyAddr.toNat (BitVec.ofNat 64 (q.wr + 1).toNat) else w1
      match w2.s.instOf f.inst with
      | some (i, k) => w2.on (·.onInst i k fun y => { y with faults := y.faults + 1 })
      | none => w2

/-! ## Checked lagoon reads (R225, R226) -/

/-- The CRC check of one block read; true when the read completes as poisoned (R225). A block already
poisoned is not counted again (log 11). An upset named once is met once by the command. -/
def W.checkBlock (w : W) (b : Nat) : W × Bool :=
  if w.s.poisoned b then (w, true)
  else if w.s.crcWrong b || w.env.crcTwice.contains b then
    let r := blockRegion b
    let w1 := w.on fun s =>
      (({ s with mem := { s.mem with poison := setInsert b s.mem.poison } }).onFerry r fun y =>
        { y with poisonCnt := y.poisonCnt + 1, lastPoison := some (BitVec.ofNat 24 b) }).count 24 1
    (w1.fault r { source := 3, cause := 0, region := r.1, addr := w.s.onChip (64 * b) }, true)
  else if w.env.crcOnce.contains b then
    let w1 := w.on fun s => (s.onFerry (blockRegion b) fun y => { y with reread := y.reread + 1 }).count 23 1
    ({ w1 with env := { w1.env with crcOnce := setErase b w1.env.crcOnce } }, false)
  else (w, false)

/-- The blocks of `n` blocks from `b` on, each checked; true when any is poisoned. -/
def W.checkBlocks (w : W) (b : Nat) : Nat → W × Bool
  | 0 => (w, false)
  | n + 1 =>
    let x := w.checkBlock b
    let y := x.1.checkBlocks (b + 1) n
    (y.1, x.2 || y.2)

/-- Blocks that `n` bytes at offset `off` touch. -/
def blockSpan (off n : Nat) : Nat := if n = 0 then 0 else (off + n + 63) / 64 - off / 64

/-- A read of lagoon bytes: POISON with zeros when a block is poisoned (R226). -/
def W.lagoonRead (w : W) (off n : Nat) : W × Status × List Byte :=
  let x := (w.on (·.wakeRegion (blockRegion (off / 64)))).checkBlocks (off / 64) (blockSpan off n)
  if x.2 then (x.1, .poison, List.replicate n 0)
  else (x.1, .ok, memReadN x.1.s.mem.lagoon off n)

/-- Bytes stored into one block: whole, or merged after a checked read; false when the partial write is
dropped (R227). -/
def W.blockWrite (w0 : W) (off : Nat) (bs : List Byte) : W × Bool :=
  let w := w0.on (·.wakeRegion (blockRegion (off / 64)))
  if bs.length = 64 ∧ off % 64 = 0 then (w.on (·.blockPut (off / 64) bs), true)
  else
    let x := w.checkBlock (off / 64)
    if x.2 then (x.1, false) else (x.1.on (·.lagoonPut off bs), true)

/-- Bytes stored block by block, ascending; false when any part was dropped (R223, R227). -/
def W.lagoonWrite (w : W) (off : Nat) (bs : List Byte) : Nat → W × Bool
  | 0 => (w, true)
  | fuel + 1 =>
    if bs.isEmpty then (w, true)
    else
      let n := min bs.length (64 - off % 64)
      let x := w.blockWrite off (bs.take n)
      let y := x.1.lagoonWrite (off + n) (bs.drop n) fuel
      (y.1, x.2 && y.2)

/-! ## Shoal words (R230-R232) -/

/-- A read by the cluster's own units: corrected words are counted, an uncorrectable one fails the read
and writes a fault record (R231); what an uncorrectable word delivers is free (log 5). -/
def W.shoalRead (w : W) (k : Fin 64) (off n : Nat) : W × Bool × List Byte :=
  let base := k.1 * 0x400000 + off
  let inside := fun x => decide (base / 8 ≤ x) && decide (x < (base + n + 7) / 8)
  let one := (w.env.eccOne.filter inside).length
  let two := (w.env.eccTwo.filter inside).length
  let w0 := { w with env := { w.env with eccOne := w.env.eccOne.filter fun x => !inside x } }
  let w1 := if one = 0 then w else
    w0.on fun s => (s.onCluster k fun y => { y with shoalCe := y.shoalCe + BitVec.ofNat 64 one }).count 25 one
  if two = 0 then (w1, true, memReadN w1.s.mem.shoal base n)
  else
    let w2 := w1.on fun s =>
      (s.onCluster k fun y => { y with shoalUe := y.shoalUe + BitVec.ofNat 64 two }).count 26 two
    let f : FaultRec :=
      { source := 4, cause := 0, region := k.1 / 8, cluster := k.1 % 8,
        addr := w.s.onChip (2 ^ 32 + base) }
    let w3 := w2.fault (clRegion k) f
    (w3.on fun s => { s with freeCtr := s.freeCtr + n }, false,
      (List.range n).map fun i => Config.freeByte (w3.s.freeCtr + i))

/-! ## Accesses by package address (R220) -/

/-- Who makes an access: the region that takes an ACCESS record, its DETAIL, and the cluster whose own
engine reads, if any (R368, R369). -/
structure Who where
  region : Region
  detail : Nat
  cluster : Option Nat
  inst : Nat
  tile : Nat
  deriving DecidableEq, Repr

/-- A unit of region `r` of this chiplet (R369). -/
def State.unit (s : State) (r : Region) : Who :=
  { region := r, detail := s.pk.id.toNat, cluster := none, inst := 0x7FF, tile := 2 ^ 64 - 1 }

/-- An ACCESS record of a cause (R369). -/
def W.accessFault (w : W) (who : Who) (cause a : Nat) : W :=
  w.fault who.region
    { source := 5, cause := cause, region := who.region.1, cluster := who.cluster.elim 0xF (· % 8), inst := who.inst,
      tile := who.tile, addr := a, detail := who.detail }

/-- A refusal: counted, kept in HG_LAST_REFUSED, reported in region 0 (R314, R319, R369). -/
def W.refuse (w : W) (dir hit : Bool) (win : Nat) (p : Port) (a : Nat) : W :=
  (w.on (·.noteRefused dir hit win p a)).fault 0
    { source := 8, cause := 0, region := 0, addr := a, detail := place p.1 8 8 + (if hit then win else 0xF) }

/-- The way of an access, or the status with which it ends here (R216, R217, R283, R311, R316). -/
def W.exit (w : W) (a : Nat) (k : Access) : W × (Way ⊕ Status) :=
  match w.s.leave a k with
  | .way x => (w, .inl x)
  | .down => (w, .inr .down)
  | .refused hit n p => (w.refuse true hit n p (field a 0 52), .inr .refused)

/-- Pieces read beyond the chiplet one after another; the first that fails ends the read. -/
def W.farRead (w : W) (a : Nat) : List (Nat × Nat) → W × Status × List Byte
  | [] => (w, .ok, [])
  | (off, n) :: ps =>
    let x := w.exit (a + off) .read
    match x.2 with
    | .inr st => (x.1, st, [])
    | .inl v =>
      let y := x.1.askRead v n
      if y.2.1 ≠ .ok then (y.1, y.2.1, [])
      else
        let z := y.1.farRead a ps
        (z.1, z.2.1, y.2.2 ++ z.2.2)

/-- Pieces written beyond the chiplet one after another; the first that fails ends the write. -/
def W.farWrite (w : W) (a : Nat) (bs : List Byte) : List (Nat × Nat) → W × Status
  | [] => (w, .ok)
  | (off, n) :: ps =>
    let x := w.exit (a + off) .write
    match x.2 with
    | .inr st => (x.1, st)
    | .inl v =>
      let y := x.1.askWrite v ((bs.drop off).take n)
      if y.2 ≠ .ok then y else y.1.farWrite a bs ps

/-- Bytes written by `who` cross the router port of a slice, unless a cluster of the slice's own region
writes them (R222). -/
def Who.byRouter (who : Who) (off : Nat) : Bool := who.cluster.elim 8 (· / 8) != off / 2 ^ 27

/-- A read of `n` bytes at a package address; control space is read in RegRead.lean (R217, R220, R221). -/
def W.read (w : W) (who : Who) (a n : Nat) : W × Status × List Byte :=
  match w.s.locateN a n with
  | .lagoon off => w.lagoonRead off n
  | .ctx off => (w, .ok, memReadN w.s.mem.ctx off n)
  | .shoal k off =>
    if who.cluster = some k && decide (off + n ≤ 0x400000) then
      let x := w.shoalRead (fin 63 k) off n
      (x.1, if x.2.1 then .ok else .error, x.2.2)
    else (w.accessFault who 3 a, .error, List.replicate n 0)
  | .stack _ | .away =>
    let x := w.farRead a (pieces a n (n + 1) 0)
    (x.1, x.2.1, (x.2.2 ++ List.replicate n 0).take n)
  | .control .. | .hole => (w.accessFault who 1 a, .error, List.replicate n 0)

/-- Bytes written into the shoal window of a logical cluster; those for an absent one are dropped with a
fault record, and whoever writes goes on (R29, R220; DESIGN CHOICE, log 132). -/
def W.shoalWrite (w : W) (who : Who) (a k off : Nat) (bs : List Byte) : W :=
  if w.s.present (k / 8) (k % 8) then w.on fun s => (s.shoalPut k off bs).wakeCluster k
  else w.accessFault who 4 a

/-- A write at a package address; control space is written in Regs.lean (R217, R220, R221). -/
def W.write (w : W) (who : Who) (a : Nat) (bs : List Byte) : W × Status :=
  match w.s.locateN a bs.length with
  | .lagoon off =>
    let x := w.lagoonWrite off bs bs.length
    (if who.byRouter off then x.1.on (·.sliceIn off bs.length) else x.1, if x.2 then .ok else .poison)
  | .ctx off => (w.on fun s => { s with mem := { s.mem with ctx := memWriteN s.mem.ctx off bs } }, .ok)
  | .shoal k off =>
    let n := 0x400000 - off
    let w1 := w.shoalWrite who a k off (bs.take n)
    (if bs.length ≤ n then w1 else w1.shoalWrite who (a + n) (k + 1) 0 (bs.drop n), .ok)
  | .stack off =>
    if w.s.inImage off bs.length then (w.accessFault who 2 a, .error)
    else w.farWrite a bs (pieces a bs.length (bs.length + 1) 0)
  | .away => w.farWrite a bs (pieces a bs.length (bs.length + 1) 0)
  | .control .. | .hole => (w.accessFault who 2 a, .error)

/-- A read as a little-endian number, none when it fails. -/
def W.readNat (w : W) (who : Who) (a n : Nat) : W × Status × Nat :=
  let x := w.read who a n
  (x.1, x.2.1, bytesToNat x.2.2)

/-- The STATUS code of a response (R296). -/
def statusCode : Status → Nat
  | .ok => 0 | .error => 1 | .poison => 2 | .refused => 3 | .down => 4 | .timeout => 5 | .unsupported => 6

/-- The status of a code; the reserved 0b111 reads as ERROR (log 12). -/
def statusOf : Nat → Status
  | 0 => .ok | 2 => .poison | 3 => .refused | 4 => .down | 5 => .timeout | 6 => .unsupported | _ => .error

/-! ## Free values (log 5) -/

/-- A fresh free 64-bit value, and the state with its counter advanced. -/
def State.fresh (s : State) : State × W64 := ({ s with freeCtr := s.freeCtr + 1 }, Config.freeWord s.freeCtr)

/-! ## The flash log (R442, R445, R447) -/

/-- A log record: header, body, padding and CRC-32C (R442). -/
def State.logRecord (s : State) (type flags : Nat) (body : List Byte) : List Byte :=
  let len := (36 + body.length + 63) / 64 * 64
  let head := natToBytes 2 type ++ natToBytes 1 flags ++ natToBytes 1 s.pk.id.toNat ++ natToBytes 4 len ++
    natToBytes 8 s.vault.serial.toNat ++ natToBytes 8 s.pk.powerOn.toNat ++ natToBytes 8 s.ao.cc.toNat
  let front := head ++ body ++ List.replicate (len - 36 - body.length) 0
  front ++ natToBytes 4 (crc32c front)

/-- A record programmed into the log area of this chiplet's flash (R441-R443). -/
def State.logAdd (s : State) (rec_ : List Byte) : State :=
  { s with life := { s.life with log := logAppend s.life.log s.life.logSize rec_ } }

/-- TOTALS, BINDING and RESERVE records are mirrored (R445). -/
def mirrored (rec_ : List Byte) : Bool := recType rec_ == 1 || recType rec_ == 5 || recType rec_ == 6

/-- A record appended by the lead: to its own log, and sent to every mirror. An append that fails, its retry too,
leaves the log as it was and is counted (R445, R447; log 152). -/
def W.leadAppend (w : W) (rec_ : List Byte) : W :=
  let w1 := w.on fun s => if w.env.logBad then s else s.logAdd rec_
  let w2 := if mirrored rec_ then w1.on (·.emit (.toPkg (.mirror rec_))) else w1
  if w.env.logBad || (mirrored rec_ && w.env.mirrorBad) then
    w2.on fun s => ({ s with life := { s.life with logFail := true } }).count 33 1
  else w2

/-- A record of this chiplet appended to the flash log, by way of the lead on a member (R442). -/
def W.append (w : W) (rec_ : List Byte) : W :=
  let w1 := w.on (·.emit (.append rec_))
  if w.s.pk.lead then w1.leadAppend rec_ else w1

/-- An append of this command completes in the lead's flash and in every mirror (R445). -/
def W.appended (w : W) : Bool := !w.env.logBad && !w.env.mirrorBad

/-- The records that came with the command: the lead appends those of other chiplets, a mirror those that the
lead sends it (R442, R445). -/
def W.takeRecords (w : W) : W :=
  let w1 := { w with env := { w.env with records := [] } }
  if w.s.pk.lead then w.env.records.foldl W.leadAppend w1
  else if w.s.life.mirror && !w.env.logBad then
    (w.env.records.filter mirrored).foldl (fun w r => w.on (·.logAdd r)) w1
  else w1

/-! ## Halts in start-up (R346, R347) -/

/-- PK_HALT (R346, R352). -/
def Halt.toNat (h : Halt) : Nat :=
  place (bit h.halted) 31 1 + place h.chip.toNat 28 3 + place h.code.toNat 16 8 + h.detail.toNat

/-- Start-up ends here, halted or stopped: no window stands (R346, R476). -/
def State.endStart (s : State) (ph : Phase) : State :=
  { s with pk := { s.pk with phase := ph },
           proto := { s.proto with windows := Vector.replicate 7 (Vector.replicate 16 Window16.reset) } }

/-- A halt condition met: PK_HALT is written; a member reports it, the lead stops every chiplet, and after
check 4 of R339 the lead logs it (R346, R442). -/
def W.halt (w : W) (chip : BitVec 3) (code detail : Nat) : W :=
  let h : Halt := ⟨true, chip, BitVec.ofNat 8 code, BitVec.ofNat 16 detail⟩
  let w1 := w.on fun s => { s with pk := { s.pk with halt := h } }.endStart .halted
  if w.s.pk.lead then
    let w2 := w1.on fun s => if s.pk.tree then s.emit (.toPkg .stop) else s
    if 5 ≤ w.s.pk.step.toNat then w2.append (w2.s.logRecord 3 0 (natToBytes 4 h.toNat)) else w2
  else w1.on (·.emit (.toPkg (.report (BitVec.ofNat 32 h.toNat))))

/-! ## Lists by key -/

/-- The entries of a list that `p` keeps out, and whether any was found. -/
def takeFirst {α : Type} (p : α → Bool) : List α → Option α × List α
  | [] => (none, [])
  | x :: xs => if p x then (some x, xs) else let y := takeFirst p xs; (y.1, x :: y.2)

end Sys2Proof.Machine
end

