-- ==== Sys2Proof/Machine/Image.lean ====
section
/-! DEFINITION. The image: header, directory, sections, charts and activation tables (R332-R337, R130). -/

namespace Sys2Proof.Machine

/-- A section of the directory (R333). -/
structure Sect where
  type : Nat
  off : Nat
  len : Nat
  digest : List Byte
  deriving DecidableEq, Repr

/-- NSECT, IMG_SIZE, DIR_OFF, SIG_OFF, SIG_LEN, LOG_OFF, LOG_SIZE and IMAGE_SEQ of the header (R332). -/
def imgNsect (m : Mem) : Nat := memNat m 6 2
def imgSize (m : Mem) : Nat := memNat m 8 4
def imgDirOff (m : Mem) : Nat := memNat m 12 4
def imgSigOff (m : Mem) : Nat := memNat m 16 4
def imgSigLen (m : Mem) : Nat := memNat m 20 4
def imgLogOff (m : Mem) : Nat := memNat m 24 4
def imgLogSize (m : Mem) : Nat := memNat m 28 4
def imgSeq (m : Mem) : Nat := memNat m 32 8
def imgReqFeat (m : Mem) : Nat := memNat m 40 4

/-- The directory's entries (R333). -/
def imgSects (m : Mem) : List Sect :=
  (List.range (imgNsect m)).map fun i =>
    let e := imgDirOff m + 48 * i
    { type := memNat m e 2, off := memNat m (e + 4) 4, len := memNat m (e + 8) 4,
      digest := memReadN m (e + 16) 32 }

/-- The section of a type (R333). -/
def imgSect (m : Mem) (type : Nat) : Option Sect := (imgSects m).find? (·.type == type)

/-- Bytes of a section. -/
def sectBytes (m : Mem) (s : Sect) : List Byte := memReadN m s.off s.len

/-- `n` bytes as a number at an offset of the section of a type; 0 without that section. -/
def sectNat (m : Mem) (type off n : Nat) : Nat :=
  match imgSect m type with
  | none => 0
  | some s => memNat m (s.off + off) n

/-- Offset in the image and length of chart `n`, none when the image holds no such chart (R333). -/
def chartPlace (m : Mem) (n : Nat) : Option (Nat × Nat) :=
  match imgSect m 7 with
  | none => none
  | some s =>
    let e := memNat m (s.off + 8 * n) 8
    if 8 * n + 8 ≤ s.len ∧ field e 32 32 ≠ 0 then some (s.off + field e 0 32, field e 32 32) else none

/-- Chart `n` of the image (R184). -/
def imgChart (m : Mem) (n : Nat) : Option Chart :=
  (chartPlace m n).map fun p => Chart.ofBytes (memReadN m p.1 p.2)

/-- Activation table `i` (R130). -/
def imgTable (m : Mem) (i : Nat) : ActTable :=
  let base := 2080 * i
  let g := fun o => sectNat m 8 (base + o) 4
  { n := sectNat m 8 (base + 8) 1, posInf := g 0, negInf := g 4,
    segs := (List.range 64).map fun k =>
      let o := 32 + 32 * k
      { l := g o, o := g (o + 4), c0 := g (o + 8), c1 := g (o + 12), c2 := g (o + 16), c3 := g (o + 20) } }

/-- The topology entry of an ID, 16 bytes as a number (R334). -/
def topoEntry (m : Mem) (id : Nat) : Nat := sectNat m 1 (16 * id) 16

/-- PRESENT, OPTIONAL, PATH_LEN, ROUTE, and the partner kind and REQUIRED of a port (R334). -/
def topoPresent (e : Nat) : Bool := testBit e 7
def topoOptional (e : Nat) : Bool := testBit e 6
def topoPathLen (e : Nat) : Nat := field e 55 3
def topoHop (e h : Nat) : Nat := field e (58 + 2 * h) 2
def topoRoute (e : Nat) : Nat := field e 104 24
def topoKind (e p : Nat) : Nat := field e (72 + 4 * p) 3
def topoRequired (e p : Nat) : Bool := testBit e (75 + 4 * p)

/-- The far side of a peer port coded as in ROUTE: north-south, east-west (R335). -/
def oppositePeer (k : Nat) : Nat := [2, 3, 0, 1].getD k 0

/-- IDs that the image names PRESENT (R334). -/
def topoIds (m : Mem) : List Nat := (List.range 8).filter fun i => topoPresent (topoEntry m i)

/-- The place one hop away by a peer port, in steps east and south of the lead (R335, log 27). -/
def hopFrom (q : Int × Int) (k : Nat) : Int × Int :=
  match k with
  | 0 => (q.1, q.2 - 1)
  | 1 => (q.1 + 1, q.2)
  | 2 => (q.1, q.2 + 1)
  | _ => (q.1 - 1, q.2)

/-- The place that the first `n` hops of an entry's PATH lead to (R334). -/
def topoPlace (e n : Nat) : Int × Int := (List.range n).foldl (fun q h => hopFrom q (topoHop e h)) (0, 0)

/-- The place of an entry. -/
def topoAt (e : Nat) : Int × Int := topoPlace e (topoPathLen e)

/-- The present chiplet that peer port `k` of ID `i` leads to, over ports of kind 1 at both ends (R335). -/
def topoNext (m : Mem) (i k : Nat) : Option Nat :=
  let e := topoEntry m i
  if topoKind e (2 + k) ≠ 1 then none
  else (topoIds m).find? fun j =>
    topoAt (topoEntry m j) == hopFrom (topoAt e) k && topoKind (topoEntry m j) (2 + oppositePeer k) == 1

/-- Peer port by which ID `i` sends to ID `d`, none when the route is not valid (R334). -/
def topoStep (m : Mem) (i d : Nat) : Option Nat :=
  let v := field (topoRoute (topoEntry m i)) (3 * d) 3
  if testBit v 2 then some (v % 4) else none

/-- An ID that this start left absent (R351, R352). -/
def State.idAbsent (s : State) (d : Nat) : Bool := d != s.pk.id.toNat && field s.pk.steps.toNat (8 * d) 8 == 0

/-- IDs present at this start (R352). -/
def State.presentIds (s : State) : List Nat := (List.range 8).filter fun d => d == s.pk.id.toNat || !s.idAbsent d

/-- A route between two of the chiplets `ids` crosses peer port `k` of ID `i`, at either of its ends (R335). -/
def routeCrosses (m : Mem) (ids : List Nat) (i k : Nat) : Bool :=
  ids.any fun x => ids.any fun d => x != d &&
    match topoStep m x d with
    | none => false
    | some h => (x == i && h == k) || (topoNext m x h == some i && oppositePeer h == k)

/-- Port `p` of ID `i` is REQUIRED in a package of chiplets `ids` (R334, R335). -/
def portNeeded (m : Mem) (ids : List Nat) (i p : Nat) : Bool :=
  topoRequired (topoEntry m i) p || (decide (2 ≤ p) && decide (p ≤ 5) && routeCrosses m ids i (p - 2))

/-- A record of the SPAREMAP or ENROL section of an ID, as an offset in the image; none at offset 0
(R336, R406). -/
def idRecord (m : Mem) (type id : Nat) : Option Nat :=
  match imgSect m type with
  | none => none
  | some s => let o := memNat m (s.off + 4 * id) 4; if o = 0 then none else some (s.off + o)

/-- FAIL of a bundle's direction in the assembly lane map (R336). -/
def spareLanes (m : Mem) (rec_ : Nat) (b : BundleNo) (rx : Bool) : BitVec 34 :=
  BitVec.ofNat 34 (memNat m (rec_ + 40 + 16 * b.1 + (if rx then 8 else 0)) 8)

/-! ## Isthmus groups (R14, R15, R336) -/

/-- The bonds of a group that failed, of its 33; bond 32 is the spare (R14). -/
def bondsOf (bonds : List (Nat × Nat)) (g : Nat) : List Nat :=
  ((bonds.filter fun x => x.1 == g && decide (x.2 ≤ 32)).map (·.2)).eraseDups

/-- Groups with a failed bond. -/
def bondGroups (bonds : List (Nat × Nat)) : List Nat :=
  ((bonds.filter fun x => decide (x.2 ≤ 32)).map (·.1)).eraseDups

/-- A group works when at most one of its 33 bonds fails (R14). -/
def groupWorks (bonds : List (Nat × Nat)) (g : Nat) : Bool := decide ((bondsOf bonds g).length ≤ 1)

/-- The failed bond of a group that works: the one that the spare stands in for, or the spare itself (R14, R15,
R336). -/
def bondOut (bonds : List (Nat × Nat)) (g : Nat) : Option Nat :=
  match bondsOf bonds g with
  | [b] => some b
  | _ => none

/-- PK_ISTH.SPARED: groups in which the spare stands in (R352). -/
def isthSpared (bonds : List (Nat × Nat)) : Nat :=
  ((bondGroups bonds).filter fun g => match bondOut bonds g with
    | some b => decide (b < 32)
    | none => false).length

/-- The ISTHMUS entries of an assembly record: group and bond (R336). -/
def isthRecord (m : Mem) (rec_ : Nat) : List (Nat × Nat) :=
  (List.range (memNat m (rec_ + 32) 4)).map fun i =>
    let x := memNat m (rec_ + 1352 + 4 * i) 4
    (field x 0 18, field x 26 6)

/-- PK_ISTH.DIFF: groups whose choice differs from the assembly record (R336, R352). -/
def isthDiff (bonds rec_ : List (Nat × Nat)) : Nat :=
  (((bondGroups bonds ++ rec_.map (·.1)).eraseDups).filter fun g =>
    bondOut bonds g != (rec_.find? (·.1 == g)).map (·.2)).length

/-- GRADE and STEPPING of an assembly record (R336). -/
def spareGrade (m : Mem) (rec_ : Nat) : Bool := memNat m (rec_ + 8) 1 == 1
def spareStepping (m : Mem) (rec_ : Nat) : Nat := memNat m (rec_ + 9) 1

/-- DIFF of this chiplet against its record (R336, R352). -/
def State.isthDiff (s : State) : Nat :=
  match idRecord s.site.image 2 s.pk.id.toNat with
  | some o => Machine.isthDiff s.site.bonds (isthRecord s.site.image o)
  | none => Machine.isthDiff s.site.bonds []

/-! ## The helper area (R405, R421) -/

/-- An entry of the helper area of a flash of `density` bytes, 8 KiB (R405). -/
def helperEntry (flash : Mem) (density i : Nat) : List Byte := memReadN flash (density - 0x10000 + 0x2000 * i) 0x2000

/-- The helper entry of a serial number; empty when no entry carries it (R405). -/
def helperOf (flash : Mem) (density serial : Nat) : List Byte :=
  match firstBelow 8 fun i => serial != 0 && memNat flash (density - 0x10000 + 0x2000 * i) 8 == serial with
  | some i => helperEntry flash density i
  | none => []

/-- An overwrite of an entry was cut short: SERIAL 0 and helper bytes that are not (R421). -/
def helperCutShort (flash : Mem) (density : Nat) : Bool :=
  (List.range 8).any fun i =>
    let a := density - 0x10000 + 0x2000 * i
    memNat flash a 8 == 0 && flash.any fun c => decide (a ≤ c.1) && decide (c.1 < a + 0x2000)

end Sys2Proof.Machine
end

