-- ==== Sys2Proof/Machine/Lanes.lean ====
section
/-! DEFINITION. What the lanes of a bundle carry, UI by UI: lane maps, the scramblers, TRK, VLD, PRBS31 and map
messages (R255, R259-R265, R270). Bit p of a UI is physical lane p. -/

namespace Sys2Proof.Machine

/-! ## Generators (R259, R260, R265) -/

/-- One UI of a Fibonacci generator x^a + x^b + 1, whose register holds the last bits, newest at bit 0: the
bit of this UI and the register after it (DESIGN CHOICE, log 147). -/
def lfsr {w : Nat} (a b : Nat) (r : BitVec w) : Bool × BitVec w :=
  let x := r.getLsbD (a - 1) != r.getLsbD (b - 1)
  (x, r <<< 1 ||| BitVec.ofNat w (bit x))

/-- Seed of PRBS31 on physical lane `p` (R265). -/
def prbsSeed (p : Nat) : BitVec 31 := BitVec.ofNat 31 (0x7FFFFFFF ^^^ (p * 0x01010101))

/-- The generators x^31 + x^28 + 1 of physical lanes 0-34 as PRBS31 begins (R265). -/
def prbsSeeds : List (BitVec 31) := (List.range 35).map prbsSeed

/-- One UI of PRBS31 on lanes 0-34: the bits, lane p at bit p, and the generators after it (R265). -/
def prbsUi (gs : List (BitVec 31)) : Nat × List (BitVec 31) :=
  (gs.foldr (fun r n => 2 * n + bit (lfsr 31 28 r).1) 0, gs.map fun r => (lfsr 31 28 r).2)

/-- The scramblers as a sync loads them, logical lane l with (l + 1) × 0x29D1 (R260, R272). -/
def scrSeeds : Vector (BitVec 23) 32 := Vector.ofFn fun l => BitVec.ofNat 23 ((l.1 + 1) * 0x29D1)

/-- The scramblers' bits in one UI, logical lane l at bit l, polynomial x^23 + x^18 + 1 (R260). -/
def scrBits (v : Vector (BitVec 23) 32) : Nat := v.toList.foldr (fun r n => 2 * n + bit (lfsr 23 18 r).1) 0

/-- The scramblers one UI on (R260). -/
def scrNext (v : Vector (BitVec 23) 32) : Vector (BitVec 23) 32 :=
  ⟨⟨v.toList.map fun r => (lfsr 23 18 r).2⟩, by simp⟩

/-- The scramblers `n` UI on. -/
def scrAfter (v : Vector (BitVec 23) 32) : Nat → Vector (BitVec 23) 32
  | 0 => v
  | n + 1 => scrAfter (scrNext v) n

/-! ## Lane maps (R261) -/

/-- MODE of a FAIL set (R261). -/
def modeOf (fail : BitVec 34) : BitVec 2 :=
  let data := popCount 32 fail.toNat
  let spares := (if fail.getLsbD 32 then 0 else 1) + (if fail.getLsbD 33 then 0 else 1)
  if data ≤ spares then 0
  else if 16 ≤ 34 - popCount 34 fail.toNat then 1
  else 2

/-- Failed data lanes of a map in full mode, ascending (R261). -/
def failedLanes (fail : BitVec 34) : List Nat := (List.range 32).filter fail.getLsbD

/-- Logical lane carried on spare 0 or 1; 0x3F when none (R261, R290). -/
def spareLane (m : LaneMap) (k : Nat) : Nat :=
  if m.mode ≠ 0 then 0x3F
  else
    let ls := failedLanes m.fail
    let free := [32, 33].filter fun p => !m.fail.getLsbD p
    match firstBelow free.length (fun i => free.getD i 0 == 32 + k) with
    | none => 0x3F
    | some i => ls.getD i 0x3F

/-- Spares that carry a logical lane (R290). -/
def sparesUsed (m : LaneMap) : Nat := if m.mode = 0 then (failedLanes m.fail).length else 0

/-- Physical lane of logical lane `l`, none when the direction has no such lane (R261). -/
def laneOf (m : LaneMap) (l : Nat) : Option Nat :=
  if m.mode = 0 then
    if 32 ≤ l then none
    else if !m.fail.getLsbD l then some l
    else if spareLane m 0 = l then some 32 else if spareLane m 1 = l then some 33 else none
  else if m.mode = 1 then
    if 16 ≤ l then none else ((List.range 34).filter fun p => !m.fail.getLsbD p)[l]?
  else none

/-- Physical lanes of the logical lanes, from lane 0 up. -/
def lanesOf (m : LaneMap) : List Nat := (List.range 32).filterMap (laneOf m)

/-- Logical lane l of `d` put on its physical lane; the others carry 0 (log 147). -/
def spread (m : LaneMap) (d : Nat) : Nat :=
  (lanesOf m).zipIdx.foldl (fun n x => n + place (d / 2 ^ x.2) x.1 1) 0

/-- The logical lanes read from the physical ones. -/
def gather (m : LaneMap) (u : Nat) : Nat :=
  (lanesOf m).zipIdx.foldl (fun n x => n + place (u / 2 ^ x.1) x.2 1) 0

/-! ## Flits on lanes (R259, R260, R270) -/

/-- Bytes of a flit in one UI: 4 on 32 lanes, 2 on 16 (R270). -/
def LaneMap.width (m : LaneMap) : Nat := if m.mode = 0 then 4 else 2

/-- UI of a flit: 68 or 136 (R270). -/
def LaneMap.uis (m : LaneMap) : Nat := 272 / m.width

/-- The words or half-words of a flit, in the order of the UI that carry them (R270). -/
def uiWords (m : LaneMap) (flit : List Byte) : List Nat :=
  (List.range m.uis).map fun i => sub flit (m.width * i) m.width

/-- One UI: lanes 0-33, VLD on 34, TRK on 35 (R255, R259). -/
def uiOf (data : Nat) (vld trk : Bool) : BitVec 36 :=
  BitVec.ofNat 36 (data % 2 ^ 34 + place (bit vld) 34 1 + place (bit trk) 35 1)

/-- Words scrambled and mapped onto lanes, VLD in the first UI, TRK running on; and the generators after them
(R259, R260). -/
def codeUis (m : LaneMap) : Bool → Vector (BitVec 23) 32 → BitVec 7 → List Nat →
    List (BitVec 36) × Vector (BitVec 23) 32 × BitVec 7
  | _, v, t, [] => ([], v, t)
  | first, v, t, d :: ds =>
    let k := lfsr 7 6 t
    let y := codeUis m false (scrNext v) k.2 ds
    (uiOf (spread m (d ^^^ scrBits v)) first k.1 :: y.1, y.2)

/-- The bytes that lanes carry, the sequence removed (R260, R270). -/
def decodeUis (m : LaneMap) : Vector (BitVec 23) 32 → List (BitVec 36) → List Byte
  | _, [] => []
  | v, u :: us =>
    natToBytes m.width (gather m u.toNat ^^^ (scrBits v % 2 ^ (8 * m.width))) ++ decodeUis m (scrNext v) us

/-- VLD marks the first of every `n` UI, and no other (R259). -/
def framed (n : Nat) (us : List (BitVec 36)) : Bool :=
  us.zipIdx.all fun x => x.1.getLsbD 34 == (x.2 % n == 0)

/-! ## Map messages on lanes (R264) -/

/-- Words on every lane 0-33, unscrambled, with VLD where told and TRK running on. -/
def plainUis : BitVec 7 → List (Bool × Bool) → List (BitVec 36) × BitVec 7
  | t, [] => ([], t)
  | t, d :: ds =>
    let k := lfsr 7 6 t
    let y := plainUis k.2 ds
    (uiOf (if d.1 then 2 ^ 34 - 1 else 0) d.2 k.1 :: y.1, y.2)

/-- The 4,160 UI of a map message: 64 copies, bit 0 first, then 64 UI of zeros (R264). -/
def mapBits (w : W64) : List (Bool × Bool) :=
  (List.replicate 64 ((List.range 64).map fun i => (w.getLsbD i, i == 0))).flatten ++ List.replicate 64 (false, false)

/-- The voting set: the lanes that the receiver's own test passed, less the highest of an even number (R264). -/
def votingSet (fail : BitVec 34) : List Nat :=
  let good := (List.range 34).filter fun p => !fail.getLsbD p
  if good.length % 2 = 0 then good.dropLast else good

/-- The value that most lanes of a set carry (R264). -/
def vote (set : List Nat) (u : BitVec 36) : Bool := decide (set.length < 2 * (set.filter u.getLsbD).length)

/-- The word of 64 UI by vote, bit 0 first (R264). -/
def votedWord (set : List Nat) (us : List (BitVec 36)) : W64 :=
  BitVec.ofNat 64 (us.foldr (fun u n => 2 * n + bit (vote set u)) 0)

end Sys2Proof.Machine
end

