-- ==== Sys2Proof/Machine/LinkOps.lean ====
section
/-! DEFINITION. The link layer's operations: lane maps, flits, replay, placing flits on bundles, credits
(08, and R291-R300 of 09). -/

namespace Sys2Proof.Machine

/-! ## Ports and bundles (R254) -/

/-- First global bundle of a port, and its number of bundles (R254). -/
def portFirst (p : Port) : Nat := [0, 24, 48, 56, 64, 72, 80].getD p.1 0
def portCount (p : Port) : Nat := [24, 24, 8, 8, 8, 8, 2].getD p.1 0

/-- Global bundle numbers of a port. -/
def portBundles (p : Port) : List BundleNo := (List.range (portCount p)).map fun i => fin 81 (portFirst p + i)

/-- Port of a bundle (R254). -/
def bundlePort (b : BundleNo) : Port :=
  if b.1 < 24 then 0 else if b.1 < 48 then 1 else if b.1 < 56 then 2 else if b.1 < 64 then 3
  else if b.1 < 72 then 4 else if b.1 < 80 then 5 else 6

/-- Port-local number of a bundle (R254). -/
def bundleLocal (b : BundleNo) : Nat := b.1 - portFirst (bundlePort b)

/-- The bundle `b`. -/
def State.bundle (s : State) (b : BundleNo) : Bundle := s.link.bundles.get b

/-- Bundles of a port in a state. -/
def State.bundlesIn (s : State) (p : Port) (st : BitVec 4) : List BundleNo :=
  (portBundles p).filter fun b => (s.bundle b).state == st

/-- A bundle that carries flits: up, or counted under the mode it last ran in while in diagnosis or low
power (R290). -/
def Bundle.counted (b : Bundle) : Bool := b.state == 2 || b.state == 3 || b.state == 4

/-! ## Map messages (R263) -/

/-- LAST_SEQ, which is also the ACK of an outgoing flit: the SEQ before the one expected (R263, R271). -/
def Bundle.lastSeq (b : Bundle) : BitVec 12 := b.expSeq - 1

/-- The map message of an end's RX direction (R263). -/
def mapWord (b : Bundle) : W64 :=
  let low := place b.lastSeq.toNat 36 12 + place b.rxNew.mode.toNat 34 2 + b.rxNew.fail.toNat
  BitVec.ofNat 64 (place (mapCrc low) 48 16 + low)

/-- The CRC of a received map message is correct (R263). -/
def mapGood (w : W64) : Bool := field w.toNat 48 16 == mapCrc (field w.toNat 0 48)

/-! ## Flits (R270-R273) -/

/-- A flit's bytes: header, payload, CRC-32C (R270, R271). -/
def flitBytes (type : Nat) (seq ack : BitVec 12) (nak : Bool) (f : TxFlit) : List Byte :=
  let head := natToBytes 12 (place type 92 4 + place seq.toNat 80 12 + place ack.toNat 68 12 +
    place (bit nak) 67 1 + f.proto.toNat)
  let body := head ++ (f.payload ++ List.replicate 256 0).take 256
  body ++ natToBytes 4 (crc32c body)

/-- A flit sent on a bundle with the present ACK; a NAK due goes with it (R259, R260, R270, R271, R275). -/
def State.sendOn (s : State) (b : BundleNo) (type : Nat) (seq : BitVec 12) (f : TxFlit) : State :=
  let x := s.bundle b
  let bytes := flitBytes type seq x.lastSeq x.nakDue f
  let y := codeUis x.tx true x.txScr x.trk (uiWords x.tx bytes)
  (s.emit (.flit b bytes y.1)).onBundle b fun z => { z with nakDue := false, txScr := y.2.1, trk := y.2.2 }

/-- PROTO's freed counts of a port (R292). -/
def State.freedField (s : State) (p : Port) : Nat :=
  let q := s.port p
  place (q.freed.get 0).toNat 40 20 + place (q.freed.get 1).toNat 20 20 + place (q.freed.get 2).toNat 0 20

/-- An IDLE flit, which carries ACK, NAK and freed counts (R270, R292). -/
def State.sendIdle (s : State) (b : BundleNo) : State :=
  let p := bundlePort b
  let s1 := s.sendOn b 0 (s.bundle b).nextSeq ⟨BitVec.ofNat 64 (s.freedField p), []⟩
  s1.onPort p fun q => { q with returned := q.freed }

/-- A CTRL flit with its message bytes (R289). -/
def State.sendCtrl (s : State) (b : BundleNo) (msg : List Byte) : State :=
  s.sendOn b 2 (s.bundle b).nextSeq ⟨0, msg⟩

/-! ## Placing DATA flits (R274, R278, R299) -/

/-- A bundle that may carry a new DATA flit (R274, R287). -/
def Bundle.open_ (b : Bundle) : Bool := b.state == 2 && b.lp == 0 && decide (b.held.length < 64)

/-- A bundle has placed its share of the round: two flits in full mode, one in narrows mode (R278). -/
def Bundle.served (b : Bundle) : Bool := decide ((if b.tx.mode = 0 then 2 else 1) ≤ b.placed)

/-- A new round of a port's bundles begins once every open one has placed its share (R278, log 14). -/
def State.round (s : State) (p : Port) : State :=
  if (portBundles p).any fun b => (s.bundle b).open_ && !(s.bundle b).served then s
  else (portBundles p).foldl (fun s b => s.onBundle b fun x => { x with placed := 0 }) s

/-- The bundle that takes the next DATA flit: the first that is open and has not had its share (R278, log 14). -/
def State.pick (s : State) (p : Port) : Option BundleNo :=
  (portBundles p).find? fun b => (s.bundle b).open_ && !(s.bundle b).served

/-- A DATA flit sent and held on a bundle (R274). -/
def State.sendData (s : State) (b : BundleNo) (f : TxFlit) : State :=
  let q := (s.bundle b).nextSeq
  (s.sendOn b 1 q f).onBundle b fun y =>
    { y with nextSeq := q + 1, held := y.held ++ [(q, f)], placed := y.placed + 1 }

/-- KIND and CLASS of a PROTO field (R292, R293). -/
def protoKind (w : W64) : Nat := field w.toNat 62 2
def protoClass (w : W64) : Nat := field w.toNat 60 2

/-- Class index of a flit: 0 REQ, 1 RSP, 2 CHN. -/
def TxFlit.cls (f : TxFlit) : Fin 3 := fin 2 (protoClass f.proto)

/-- Receive buffer that the partner declared for a class (R299, R306); 4 message flits before the
exchange ends (R306). -/
def PortSt.buffer (q : PortSt) (c : Fin 3) : Nat :=
  if q.capGot && q.capAcked then sub q.partner (16 + 2 * c.1) 2 else 4

/-- A flit of class `c` may be sent (R299). -/
def PortSt.mayClass (q : PortSt) (c : Fin 3) : Bool :=
  decide ((q.sent.get c - q.credit.get c).toNat < q.buffer c)

/-- A message flit takes the freed counts of the moment it leaves (R292). -/
def State.stamp (s : State) (p : Port) (f : TxFlit) : TxFlit :=
  if protoKind f.proto = 1 then
    { f with proto := BitVec.ofNat 64 (place 1 62 2 + place (protoClass f.proto) 60 2 + s.freedField p) }
  else f

/-- A CAP or CAPACK, which goes without credit and counts for none (R292, R306). -/
def TxFlit.exchange (f : TxFlit) : Bool :=
  let op := field (sub f.payload 0 16) 122 6
  protoKind f.proto == 1 && (op == 0x10 || op == 0x11)

/-- A DATA flit sent on some bundle of a port, or kept until credit and room allow (R274, R278, R299).
A port that is not up sends nothing. -/
def State.sendFlit (s : State) (p : Port) (f : TxFlit) : State :=
  let q := s.port p
  let wait := s.onPort p fun q => { q with txWait := q.txWait ++ [f] }
  if q.state = 4 ∨ q.state = 0 then s
  else if f.exchange || (q.mayClass f.cls && !(q.txWait.any fun g => g.cls == f.cls)) then
    let s1 := s.round p
    match s1.pick p with
    | none => wait
    | some b =>
      ((s1.sendData b (s.stamp p f)).onPort p fun q =>
        { q with sent := if f.exchange then q.sent else vmod q.sent f.cls (· + 1),
                 returned := if protoKind f.proto = 1 then q.freed else q.returned })
  else wait

/-- The flits that wait on a port are tried again, in order. -/
def State.drainPort (s : State) (p : Port) : State :=
  (s.port p).txWait.foldl (fun s f => s.sendFlit p f) (s.onPort p fun q => { q with txWait := [] })

/-- A message flit of a class with its slots (R292, R294). -/
def msgFlit (cls : Nat) (slots : List Nat) : TxFlit :=
  ⟨BitVec.ofNat 64 (place 1 62 2 + place cls 60 2), slots.flatMap (natToBytes 16)⟩

/-- A payload flit of read or write data (R293). -/
def dataFlit (cls dst src id : Nat) (data : List Byte) : TxFlit :=
  ⟨BitVec.ofNat 64 (place 2 62 2 + place cls 60 2 + place dst 57 3 + place src 54 3 + place id 40 14), data⟩

/-! ## Requests and responses as slots (R295, R296) -/

/-- The first slot of a request (R295). -/
def reqSlot (op src tag len ostr oseq atop addr : Nat) : Nat :=
  place op 122 6 + place src 119 3 + place tag 105 14 + place (len - 1) 97 8 + place ostr 89 8 +
    place oseq 77 12 + place atop 73 4 + place addr 0 56

/-- A response slot (R296). -/
def rspSlot (op dst tag : Nat) (st : Status) (result : Nat) : Nat :=
  place op 122 6 + place dst 119 3 + place tag 105 14 + place (statusCode st) 102 3 + place result 0 64

/-- Slots of an operation (R297). -/
def opSlots (op : Nat) : Nat :=
  if op = 3 ∨ op = 4 ∨ op = 5 ∨ op = 7 ∨ op = 8 then 2 else if op = 0x10 then 4 else 1

/-- The messages of a message flit, in ascending slot order (R294). -/
def decodeSlots : Nat → List (BitVec 128) → List RxMsg
  | 0, _ => []
  | _, [] => []
  | fuel + 1, x :: xs =>
    let op := field x.toNat 122 6
    if op = 0 then decodeSlots fuel xs
    else
      let n := opSlots op
      ⟨(x :: xs).take n⟩ :: decodeSlots fuel ((x :: xs).drop n)

/-- The 16 slots of a message flit's payload (R294). -/
def payloadSlots (bs : List Byte) : List (BitVec 128) :=
  (List.range 16).map fun i => BitVec.ofNat 128 (sub bs (16 * i) 16)

/-- Fields of a message's slots (R295, R296): OP, SRC or DST, TAG, ATOP, STATUS. -/
def RxMsg.op (m : RxMsg) : Nat := field (m.slots.headD 0).toNat 122 6
def RxMsg.src (m : RxMsg) : BitVec 3 := BitVec.ofNat 3 (field (m.slots.headD 0).toNat 119 3)
def RxMsg.tag (m : RxMsg) : Nat := field (m.slots.headD 0).toNat 105 14
def RxMsg.atop (m : RxMsg) : Nat := field (m.slots.headD 0).toNat 73 4
def RxMsg.status (m : RxMsg) : Nat := field (m.slots.headD 0).toNat 102 3

/-- The request of a message (R295). -/
def RxMsg.req (m : RxMsg) : Req :=
  let x := (m.slots.headD 0).toNat
  let y := (m.slots.getD 1 0).toNat
  { src := m.src, tag := BitVec.ofNat 14 m.tag, len := field x 97 8 + 1, ostr := BitVec.ofNat 8 (field x 89 8),
    oseq := BitVec.ofNat 12 (field x 77 12), addr := BitVec.ofNat 56 (field x 0 56),
    op0 := BitVec.ofNat 64 (field y 0 64), op1 := BitVec.ofNat 64 (field y 64 64) }

/-- A message that `m` describes is the next of a flit of the port (R294). -/
def State.due (s : State) (p : Port) (m : RxMsg → Bool) : Option RxMsg :=
  ((s.port p).inbox.find? fun f => f.head?.any m).bind (·.head?)

/-- The next message of a flit that `m` describes taken out of the port's inbox. -/
def State.takeMsg (s : State) (p : Port) (m : RxMsg → Bool) : State :=
  s.onPort p fun q =>
    let x := takeFirst (fun f : List RxMsg => f.head?.any m) q.inbox
    { q with inbox := ((x.1.getD []).drop 1 :: x.2).filter fun f => !f.isEmpty }

/-- The payload flit of a message, when it waits: class, sender and ID (R293). -/
def State.takePayload (s : State) (p : Port) (cls src id : Nat) : State × Option (List Byte) :=
  let m := fun f : TxFlit => protoClass f.proto == cls && field f.proto.toNat 54 3 == src &&
    field f.proto.toNat 40 14 == id
  let x := takeFirst m (s.port p).payWait
  (s.onPort p fun q => { q with payWait := x.2 }, x.1.map (·.payload))

/-! ## Acknowledgement and replay (R274-R279) -/

/-- The flits that an ACK leaves held: all after `a`, when `a` is held (R274). -/
def ackHeld (a : BitVec 12) (h : List (BitVec 12 × TxFlit)) : List (BitVec 12 × TxFlit) :=
  if h.any (·.1 == a) then (h.dropWhile (·.1 != a)).drop 1 else h

/-- An ACK taken: the flits it covers are freed, and the replay count returns to 0 (R274, R279). -/
def State.takeAck (s : State) (b : BundleNo) (a : BitVec 12) : State :=
  s.onBundle b fun x =>
    let h := ackHeld a x.held
    { x with held := h, replays := if h.length = x.held.length then x.replays else 0 }

/-- Every held flit sent again, in order, and counted (R276, R290, R436). -/
def State.replayHeld (s : State) (b : BundleNo) : State :=
  let h := (s.bundle b).held
  let s1 := h.foldl (fun s f => s.sendOn b 1 f.1 f.2) s
  let s2 := s1.onBundle b fun x => { x with replay := x.replay + BitVec.ofNat 64 h.length }
  s2.onBundleLife b fun y => { y with replay := sat64 y.replay h.length }

/-- A NAK asked for, at most once for one expected SEQ within 64 flit times; a flit time passes with each
flit received (R275, log 15). -/
def State.wantNak (s : State) (b : BundleNo) : State :=
  s.onBundle b fun x =>
    if x.nakFor = some x.expSeq ∧ x.sinceNak < 64 then x
    else { x with nakDue := true, nakFor := some x.expSeq, sinceNak := 0 }

/-- A received freed count replaces the held one when it is newer (R299). -/
def newer (h f : BitVec 20) : BitVec 20 := if (f - h).toNat < 2 ^ 19 then f else h

/-- The freed counts of an IDLE or message flit (R292, R299). -/
def State.takeCredits (s : State) (p : Port) (proto : W64) : State :=
  s.onPort p fun q =>
    let upd := fun (v : Vector (BitVec 20) 3) (i : Fin 3) lo =>
      vmod v i fun h => newer h (BitVec.ofNat 20 (field proto.toNat lo 20))
    { q with credit := upd (upd (upd q.credit 0 40) 1 20) 2 0 }

/-- A flit of a class moved out of its receive buffer (R299). -/
def State.freeFlit (s : State) (p : Port) (c : Fin 3) : State :=
  s.onPort p fun q => { q with freed := vmod q.freed c (· + 1) }

/-! ## Diagnosis (R279-R280) -/

/-- A diagnosis begins: DIAG_REQ for 16 flit times, then PRBS31 (R280 steps 1 and 2). Never on a bundle
that is not up (R285). The count of replays begins again with it (DESIGN CHOICE, log 134). -/
def State.beginDiag (s : State) (b : BundleNo) : State :=
  if (s.bundle b).state ≠ 2 then s
  else
    let s1 := (List.range 16).foldl (fun s _ => s.sendCtrl b [1]) s
    let s2 := (s1.emit (.prbs b prbsSeeds)).onBundle b fun x =>
      { x with state := 3, step := 3, why := .diagnosis, mapSent := false, mapGot := false, badRun := 0,
               goodRun := 0, replays := 0, alignBad := 0, added := false,
               diags := if x.diags = 255 then 255 else x.diags + 1 }
    s2.onBundleLife b fun y => { y with diags := BitVec.ofNat 32 (satAdd 32 y.diags.toNat 1) }

/-- A replay of the held flits; the eighth in a row of the oldest one begins a diagnosis (R276, R279). -/
def State.replayOrDiag (s : State) (b : BundleNo) : State :=
  if (s.bundle b).held.isEmpty then s
  else if 8 ≤ (s.bundle b).replays + 1 then
    (s.replayHeld b).onBundle b (fun x => { x with replays := x.replays + 1 }) |>.beginDiag b
  else (s.replayHeld b).onBundle b fun x => { x with replays := x.replays + 1 }

/-! ## Lifetime counts of lanes (R437) -/

/-- Lanes of a 37-bit set each counted once in the RX direction (R437). -/
def State.countRx (s : State) (b : BundleNo) (set : Nat) : State :=
  { s with life := { s.life with counts := { s.life.counts with
      lanesRx := vmod s.life.counts.lanesRx b fun v =>
        v.mapFinIdx fun i x _ => if testBit set i then BitVec.ofNat 8 (satAdd 8 x.toNat 1) else x } } }

/-- Lanes of a set each counted once in the TX direction (R437). -/
def State.countTx (s : State) (b : BundleNo) (set : Nat) : State :=
  { s with life := { s.life with counts := { s.life.counts with
      lanesTx := vmod s.life.counts.lanesTx b fun v =>
        v.mapFinIdx fun i x _ => if testBit set i then BitVec.ofNat 8 (satAdd 8 x.toNat 1) else x } } }

/-- An entry into narrows mode counted (R436). -/
def State.countNarrows (s : State) (b : BundleNo) : State :=
  s.onBundleLife b fun y => { y with narrows := sat16 y.narrows 1 }

/-- The forwarded clock and TRK driven; the manual gives TRK's generator no start, so it begins at a free nonzero
value (R257, R259, log 147). -/
def State.drive (s : State) (b : BundleNo) : State :=
  let x := s.fresh
  (x.1.emit (.clock b true)).onBundle b fun y => { y with trk := BitVec.ofNat 7 (1 + x.2.toNat % 127) }

/-! ## Lane tests and maps (R265, R280, R288) -/

/-- Spares that a diagnosis gave to a logical lane that they did not carry before, counted (R284, R436). -/
def State.countSpares (s : State) (b : BundleNo) (old new : LaneMap) : State :=
  let n := countBelow 2 fun k => spareLane new k != 0x3F && spareLane new k != spareLane old k
  if (s.bundle b).why = .diagnosis ∧ n ≠ 0 then s.onBundleLife b fun y => { y with spare := sat16 y.spare n } else s

/-- New failures added to FAIL of the RX direction, counted, and MODE set by R261; 36 lanes, then the
forwarded clock (R261, R265, R280, R436, R437). Lanes that could not be aligned have failed too. -/
def State.laneTest (s : State) (b : BundleNo) (found : BitVec 36) (clkOk : Bool) : State :=
  let x := s.bundle b
  let bad := found ||| x.alignBad
  let fail := x.rx.fail ||| BitVec.ofNat 34 (bad.toNat % 2 ^ 34)
  let dead := bad.getLsbD 34 || bad.getLsbD 35 || !clkOk
  let new : LaneMap := ⟨fail, if dead then 2 else modeOf fail⟩
  let s1 := s.onBundle b fun y => { y with rxNew := new, added := y.added || fail != y.rx.fail }
  let s2 := (s1.countRx b (bad.toNat + place (bit (!clkOk)) 36 1)).countSpares b x.rx new
  if new.mode = 1 ∧ x.rx.mode ≠ 1 then s2.countNarrows b else s2

/-- The end sends its map message (R263, R264). -/
def State.sendMap (s : State) (b : BundleNo) : State :=
  let w := mapWord (s.bundle b)
  let y := plainUis (s.bundle b).trk (mapBits w)
  (s.emit (.mapMsg b w y.1)).onBundle b fun x => { x with mapSent := true, trk := y.2 }

/-! ## Ports (R265 step 9, R306) -/

/-- What the RQ812 of stepping 0xA1 declares on a port (R306, R308). -/
def capRecord (s : State) (p : Port) : List Byte :=
  let prof := if isPeer p then 1 else if isMemory p then 0 else 4
  let feat := if isPeer p then 0x3F else if isMemory p then 0 else 0x70000
  let cr := if isPeer p then [1024, 1024, 1024] else if isMemory p then [0, 4096, 0] else [512, 512, 0]
  let maxReq := if isPeer p then 16384 else if isMemory p then 0 else 1024
  let up := s.bundlesIn p 2
  natToBytes 2 0x0B74 ++ natToBytes 2 0x0812 ++ natToBytes 1 s.pk.stepping.toNat ++ natToBytes 1 prof ++
    natToBytes 1 p.1 ++ natToBytes 1 1 ++ natToBytes 1 up.length ++
    natToBytes 1 (up.filter fun b => !(s.bundle b).wide).length ++ natToBytes 2 0 ++ natToBytes 4 feat ++
    natToBytes 2 (cr.getD 0 0) ++ natToBytes 2 (cr.getD 1 0) ++ natToBytes 2 (cr.getD 2 0) ++
    natToBytes 2 maxReq ++ natToBytes 4 0 ++ natToBytes 20 0

/-- A CAP message: OP in slot 0, the record in slots 1 to 3 (R297, R306). -/
def State.sendCap (s : State) (p : Port) : State :=
  let r := capRecord s p
  (s.sendFlit p (msgFlit 0 (reqSlot 0x10 s.pk.id.toNat 0 1 0 0 0 0 :: (List.range 3).map fun i =>
    sub r (16 * i) 16))).onPort p fun q => { q with capSent := true }

/-- Once no bundle of a training port trains, the port reports its state and sends its CAP (R265, R269,
R306). -/
def State.settlePort (s : State) (p : Port) : State :=
  if (s.port p).state ≠ 1 || !(s.bundlesIn p 1).isEmpty then s
  else if !(portBundles p).any fun b => (s.bundle b).counted then
    s.onPort p fun q => { q with state := if (s.bundlesIn p 5).isEmpty then 0 else 4 }
  else (s.onPort p fun q => { q with state := 2 }).sendCap p

/-- A bundle retired at start (R265, R266, R269, R272, R436). -/
def State.retireAtStart (s : State) (b : BundleNo) : State :=
  let s1 := s.onBundle b fun x => { x with state := 5, mapSent := false, mapGot := false }
  (s1.onBundleLife b fun y => { y with retires := sat16 y.retires 1 }).settlePort (bundlePort b)

/-- Both maps are accepted: the direction syncs (R272). The scramblers are loaded (R260). At training SEQ
starts at 0; after a diagnosis or a low-power exit the held values stand. -/
def State.beginSync (s : State) (b : BundleNo) : State :=
  let s1 := s.onBundle b fun x =>
    let y := { x with step := 8, goodRun := 0, badRun := 0, nakFor := none, nakDue := false, txScr := scrSeeds,
                      rxScr := scrSeeds }
    if x.why = .training then { y with nextSeq := 0, expSeq := 0 } else y
  s1.sendIdle b

/-- A bundle waits for 16 good flits (R272). -/
def Bundle.syncing (b : Bundle) : Bool := b.state != 2 && b.state != 5 && b.mapSent && b.mapGot

/-- A port of which no bundle is up or in diagnosis any more, while some sleep, is in low power (R285, R290). -/
def State.portRests (s : State) (p : Port) : State :=
  let is := fun (st : BitVec 4) => (portBundles p).any fun c => (s.bundle c).state == st
  if is 4 && !is 2 && !is 3 then s.onPort p fun q => if q.state = 2 then { q with state := 3 } else q else s

/-- The direction is up (R272): after a diagnosis or a low-power exit the held flits go again, and new
DATA flits follow; a failed exit check begins a diagnosis (R280 step 6, R288); an entry to low power
that waited goes on (R285). -/
def State.goUp (s : State) (b : BundleNo) : State :=
  let x := s.bundle b
  let p := bundlePort b
  let s1 := s.onBundle b fun y =>
    { y with state := 2, mapSent := false, mapGot := false, lp := if y.lp = 0 then 0 else 1, diagAfter := false,
             wide := y.tx.mode == 0 && y.rx.mode == 0 }
  let s2 := if x.why = .training then s1.settlePort p
    else
      let s2 := if x.held.isEmpty then s1 else s1.replayHeld b
      let s3 := s2.onPort p fun q => if q.state = 3 then { q with state := 2 } else q
      s3.drainPort p
  if x.diagAfter then s2.beginDiag b else s2

end Sys2Proof.Machine
end

