-- ==== Sys2Proof/Machine/InstOps.lean ====
section
/-! DEFINITION. Records, retirement and instance states (11). -/

namespace Sys2Proof.Machine

/-! ## Command records (R358, R359) -/

/-- Field `[lo + w - 1 : lo]` of a record. -/
def recField (bs : List Byte) (lo w : Nat) : Nat := field (bytesToNat bs) lo w

/-- OP and INST of a record (R358). -/
def recOp (bs : List Byte) : Nat := recField bs 0 8
def recInst (bs : List Byte) : SlotNo := fin 255 (recField bs 8 5)

/-- The bits that a record may set, by OP: those that R358 and R359 name. TAG is software's own. -/
def recMask (op : Nat) : Nat :=
  let ones := fun lo w => place (2 ^ w - 1) lo w
  ones 0 13 + ones 32 32 + match op with
    | 1 => ones 16 2 + ones 64 12 + ones 128 56 + ones 192 56 + ones 256 56
    | 4 => ones 16 1 + ones 64 64
    | 5 => ones 64 7 + ones 128 64 + ones 192 64
    | 6 => ones 64 32
    | 7 | 8 => ones 128 56 + ones 192 64
    | _ => 0

/-- A reserved OP or a nonzero reserved field (R359). STATUS is software's zero (R358). -/
def recBad (bs : List Byte) : Bool :=
  let x := bytesToNat bs % 2 ^ 448
  decide (8 < recOp bs) || x &&& recMask (recOp bs) != x

/-- Address of record `n` of a ring (R353). -/
def ringAddr (q : Ring) (n : W32) : Nat := q.base.toNat + 64 * (n.toNat % ringSize q.log2)

/-! ## Completion (R362, R475) -/

/-- STATE codes of CMD_INST (R374). -/
def InstState.code : InstState → Nat
  | .idle => 0 | .bound => 1 | .running => 2 | .draining => 3 | .stopped => 4 | .faulted => 5

/-- Codes of a STATUS word (R362). -/
def codeOk : Nat := 0
def codeNotNow : Nat := 1
def codeUnplaced : Nat := 2
def codeBad : Nat := 3
def codeStopped : Nat := 4
def codeFaulted : Nat := 5
def codeMem : Nat := 6

/-- The STATUS word (R362). -/
def statusWord (code st reason detail : Nat) : W64 :=
  BitVec.ofNat 64 (place 1 63 1 + place code 48 8 + place st 44 4 + place reason 40 4 + place detail 0 40)

/-- The leading retired records leave the list, and DONE passes them; records of an earlier enabling leave
as they retire and count for nothing (R354, R357). -/
def Ring.settle (q : Ring) : Ring :=
  let old := q.opened.filter fun o => o.era != q.era && !o.retired
  let cur := q.opened.filter fun o => o.era == q.era
  let kept := cur.dropWhile (·.retired)
  { q with opened := old ++ kept, done := q.done + BitVec.ofNat 32 (cur.length - kept.length) }

/-- A record of a ring is retired (R354). -/
def Ring.retire (q : Ring) (f : RecRef) : Ring :=
  Ring.settle { q with opened := q.opened.map fun o =>
    if o.n = f.n ∧ o.era = f.era then { o with retired := true } else o }

/-- A COMMAND record (R369, R475). -/
def W.commandFault (w : W) (r : Region) (cause : Nat) (st : Status) (ring : RingNo) (a inst : Nat) : W :=
  w.fault r
    { source := 0xD, cause := cause, region := r.1, inst := inst, addr := a,
      detail := statusCode st + place ring.1 8 3 }

/-- A record retires: STATUS is written, the trace takes it, DONE advances. An Alarmed chiplet retires
nothing (R362, R367, R423, R475). -/
def W.retire (w : W) (r : Region) (f : RecRef) (status : W64) : W :=
  if w.s.alarmed then w
  else
    let x := w.write (w.s.unit r) (f.addr + 56) (natToBytes 8 status.toNat)
    let w1 := if x.2 = .ok then x.1 else x.1.commandFault r 3 x.2 f.ring (f.addr + 56) 0x7FF
    w1.on fun s => s.onRegion r fun y =>
      { y with
        trace := y.trace.map fun t => if t.ref = f then { t with status := status } else t,
        rings := vmod y.rings f.ring fun q => q.retire f }

/-- A record that names an instance retires with the instance's state and reason. -/
def W.retireInst (w : W) (r : Region) (k : SlotNo) (f : RecRef) (code detail : Nat) : W :=
  let i := w.s.inst r k
  w.retire r f (statusWord code i.st.code i.reason.toNat detail)

/-! ## Instance status (R370) -/

/-- The status record's bytes (R370). -/
def instRecord (i : Inst) : List Byte :=
  natToBytes 8 i.tiles.toNat ++ natToBytes 2 i.redo.length ++
    natToBytes 1 (i.st.code + 16 * i.reason.toNat) ++
    natToBytes 1 (bit i.displaced + 2 * bit i.incomplete) ++ natToBytes 4 i.faults.toNat ++
    natToBytes 8 (i.firstTile.getD (2 ^ 64 - 1)) ++ natToBytes 40 0 ++ i.redo.flatMap (natToBytes 8)

/-- The status record written, when STAT_ADDR is not 0; false when its write fails (R370, R475). -/
def W.writeInstStatus (w : W) (r : Region) (k : SlotNo) : W × Bool :=
  let i := w.s.inst r k
  if i.statAddr = 0 then (w, true)
  else
    let x := w.write (w.s.unit r) i.statAddr.toNat (instRecord i)
    if x.2 = .ok then (x.1, true)
    else (x.1.commandFault r 4 x.2 (i.startRec.elim 0 (·.ring)) i.statAddr.toNat (w.s.instName r k), false)

/-- Working contexts and staged blocks of an instance dropped: it is released or displaced, or a START gives it
new bounds and inputs (R195, R211, R366). -/
def State.dropStaging (s : State) (r : Region) (k : SlotNo) : State :=
  { s with regions := s.regions.map fun y =>
      { y with fy := { y.fy with
          loaded := y.fy.loaded.filter (fun c => c.inst != some (r, k)),
          staged := y.fy.staged.filter (·.inst != (r, k)) } } }

/-- Working contexts of an instance dropped with the blocks that they have not filled; blocks staged in full stand
for a RESUME (R366, R385). -/
def State.restStaging (s : State) (r : Region) (k : SlotNo) : State :=
  { s with regions := s.regions.map fun y =>
      { y with fy := { y.fy with
          loaded := y.fy.loaded.filter (fun c => c.inst != some (r, k)),
          staged := y.fy.staged.filter fun x =>
            x.inst != (r, k) || (x.left == 0 && x.failed == 0 && decide (x.level < 2)) } } }

/-! ## Instances with positions elsewhere (log 142) -/

/-- An instance of this chiplet, not one of another that has positions here. -/
def ownSlot (k : SlotNo) : Bool := decide (k.1 < 32)

/-- Slots that hold an instance. -/
def State.liveInsts (s : State) : List (Region × SlotNo) :=
  s.regions.toList.zipIdx.flatMap fun x => x.1.insts.toList.zipIdx.filterMap fun y =>
    if y.1.st = .idle then none else some (fin 7 x.2, fin 255 y.2)

/-- Positions of an instance lie on other chiplets, or another chiplet owns it. -/
def State.reachesOut (s : State) (k : SlotNo) (c : Chart) : Bool :=
  !ownSlot k || c.positions.any fun p => p.chiplet != s.pk.id.toNat

/-- The other chiplets of an instance told (R147, R185, R366, R369). -/
def State.tell (s : State) (r : Region) (k : SlotNo) (w : InstWord) : State :=
  if (s.inst r k).chart.any (s.reachesOut k) then s.emit (.toPkg (.tell (s.instName r k) w)) else s

/-- The code with which a START or RESUME retires (R361). -/
def endCode : InstState → Nat
  | .stopped => codeStopped
  | .faulted => codeFaulted
  | _ => codeOk

/-- An instance enters Bound, Stopped or Faulted: staging under way ends, status record, INSTANCE record, then the START or
RESUME and a pending STOP retire (R361, R370, R475). -/
def W.enter (w : W) (r : Region) (k : SlotNo) (st : InstState) (reason : BitVec 4) : W :=
  let w1 := w.on fun s => (s.restStaging r k).onInst r k fun i =>
    { i with st := st, reason := reason, faulting := 0, stopPending := false }
  let x := w1.writeInstStatus r k
  let i := x.1.s.inst r k
  let w2 := if st = .faulted then
      x.1.fault r
        { source := 0xB, cause := reason.toNat, region := r.1, inst := w.s.instName r k,
          detail := i.redo.length }
    else x.1
  let w3 := match i.startRec with
    | some f => w2.retireInst r k f (if x.2 then endCode st else codeMem) (i.tiles.toNat % 2 ^ 40)
    | none => w2
  let w4 := match i.stopRec with
    | some f => w3.retireInst r k f (if st = InstState.faulted then codeFaulted else codeOk) 0
    | none => w3
  w4.on (·.onInst r k fun i => { i with startRec := none, stopRec := none })

/-- A fault met by a Running or Draining instance; it enters Faulted once its positions are quiet, and its other
chiplets are told (R147, R361, R369). The first reason stands. -/
def State.faultInst (s : State) (r : Region) (k : SlotNo) (reason : BitVec 4) : State :=
  let i := s.inst r k
  if (i.st = .running ∨ i.st = .draining) ∧ i.faulting = 0 then
    (s.onInst r k fun i => { i with faulting := reason }).tell r k .fault
  else s

/-! ## Clusters of an instance -/

/-- Clusters of this chiplet bound to an instance. -/
def State.boundClusters (s : State) (r : Region) (k : SlotNo) : List (Fin 64) :=
  ((List.range 64).map (fin 63)).filter fun c => (s.clusters.get c).inst == some (r, k)

/-- A cluster has nothing of its instance under way (R147, R361). -/
def ClusterSt.quiet (c : ClusterSt) : Bool :=
  c.tile.isNone && c.promo.isNone && c.drain.isNone && c.queue.isEmpty && c.vc.isNone

/-- A cluster given up: no instance, no position, no tile (R361, R366). VC_CFG keeps its value (DESIGN CHOICE, log
130). -/
def ClusterSt.release (c : ClusterSt) : ClusterSt :=
  { c with inst := none, pos := none, issued := [], tile := none, promo := none, drain := none, bank := [],
           chainIn := ChainBuf.empty, fault := none, queue := [], vc := none,
           outs := [], turn := 0 }

/-- The clusters of an instance released. -/
def State.releaseClusters (s : State) (r : Region) (k : SlotNo) : State :=
  (s.boundClusters r k).foldl (fun s c => s.onCluster c ClusterSt.release) s

/-! ## Ports and instances (R283, R284, R369) -/

/-- Traffic to a package address crosses port `p` (R216, R217, R334). -/
def State.crosses (s : State) (p : Port) (a : Nat) : Bool :=
  if addrChip a != s.pk.id.toNat then s.routePort (addrChip a) == some p
  else if testBit a 55 then !isMemory p && s.proto.fence.getLsbD p.1
  else if testBit a 51 then false
  else isMemory p && (s.proto.stackWays == 0 || s.proto.stackWays.toNat == p.1 + 1)

/-- An instance has positions, counters, present arguments or records beyond port `p`. -/
def State.usesPort (s : State) (p : Port) (i : Inst) : Bool :=
  match i.chart with
  | none => false
  | some c =>
    let far := fun d => d != s.pk.id.toNat && s.routePort d == some p
    c.positions.any (fun x => far x.chiplet) || c.counters.any (fun x => far x.chiplet) ||
      (i.recBase != 0 && s.crosses p i.recBase.toNat) ||
      (List.range 16).any fun n =>
        let a := boundArg c i.args n
        a.present && s.crosses p a.base

/-- Every instance whose traffic crosses a port that went down is faulted with REASON 0x6 (R369). -/
def State.faultUsers (s : State) (p : Port) : State :=
  s.liveInsts.foldl (fun s x =>
    if s.usesPort p (s.inst x.1 x.2) then s.faultInst x.1 x.2 6 else s) s

end Sys2Proof.Machine
end

