-- ==== Sys2Proof/Machine/BindOps.lean ====
section
/-! DEFINITION. Placement, conflicts, bounds and counters of instances (R189, R195, R202, R206, R364-R366). -/

namespace Sys2Proof.Machine

/-! ## Placement (R28, R189, R351) -/

/-- Package address of PK_REGIONr of chiplet `d` (R221, R352). -/
def pkRegionAddr (d r : Nat) : Nat := place d 52 3 + 2 ^ 51 + 0x300000000 + 74 * 0x10000 + 0x100 + 4 * r

/-- Clusters of region `r` of chiplet `d`: this chiplet's own, or a read of PK_REGIONr there (R23, R189). -/
def W.clustersAt (w : W) (d r : Nat) : W × Nat :=
  if d = w.s.pk.id.toNat then (w, (w.s.site.regions.get (fin 7 r)).clusters.toNat)
  else if w.s.idAbsent d then (w, 0)
  else
    match w.s.leave (pkRegionAddr d r) .read with
    | .way v =>
      let x := w.askRead v 4
      (x.1, if x.2.1 = .ok then field (bytesToNat x.2.2) 28 4 else 0)
    | _ => (w, 0)

/-- The positions of a chart on absent logical clusters (R189). -/
def W.absentPositions (w : W) : List Position → W × List Position
  | [] => (w, [])
  | p :: ps =>
    let x := w.clustersAt p.chiplet p.region
    let y := x.1.absentPositions ps
    (y.1, if p.cluster < x.2 then y.2 else p :: y.2)

/-- The groups that run, or none when the chart cannot be placed (R189, R351). -/
def placement (s : State) (c : Chart) (absent : List Position) : Option (List Nat) :=
  let bad := (absent.map (·.group)).eraseDups
  let l := shapeChain (modeShape c.mode)
  let kept := c.groups.filter fun g => !bad.contains g
  let drawn := fun e : CtrEntry => kept.any fun g => (c.members g).any fun p =>
    p.ctrChiplet == e.chiplet && p.counter == e.counter
  if 1 < l && !bad.isEmpty then none
  else if c.counters.any (fun e => s.idAbsent e.chiplet) then none
  else if !bad.isEmpty && !(c.counters.all drawn) then none
  else some kept

/-! ## Conflicts (R19, R202, R366) -/

/-- Clusters of this chiplet that a chart's groups name. -/
def State.chartClusters (s : State) (c : Chart) (kept : List Nat) : List (Fin 64 × Position) :=
  (c.positions.filter fun p => p.chiplet == s.pk.id.toNat && kept.contains p.group).map fun p =>
    (fin 63 (8 * p.region + p.cluster), p)

/-- Regions of this chiplet whose slices hold the L3 slots of a chart's groups (R196, R202, R203). -/
def State.chartRegions (s : State) (c : Chart) (kept : List Nat) : List Nat :=
  let own := ((c.positions.filter fun p => p.chiplet == s.pk.id.toNat && kept.contains p.group).map
    (·.region)).eraseDups
  let masks := (c.patternsAt 0).map (·.regionMask)
  (List.range 8).filter fun r => own.contains r || (!own.isEmpty && masks.any (testBit · r))

/-- The L3 slot area: first byte and size in the slice (R196, R197). -/
def l3Area (c : Chart) : Nat × Nat := (c.l3.buf, c.l3.slots * slotBytes c 0)

/-- Two byte ranges overlap; an empty one overlaps nothing. -/
def overlap (a b : Nat × Nat) : Bool := decide (max a.1 b.1 < min (a.1 + a.2) (b.1 + b.2))

/-- A bound instance that holds its clusters and areas (R360, R366). -/
def Inst.holds (i : Inst) : Bool := i.st != .idle && !i.displaced

/-- Instances with positions here that conflict with a chart placed on groups `kept` (R19, R202). -/
def State.conflicts (s : State) (me : Region × SlotNo) (c : Chart) (kept : List Nat) :
    List (Region × SlotNo) :=
  let cl := s.chartClusters c kept
  let rs := s.chartRegions c kept
  s.liveInsts.filter fun x =>
    let i := s.inst x.1 x.2
    x != me && i.holds &&
      (cl.any (fun k => (s.clusters.get k.1).inst == some x) ||
        match i.chart with
        | none => false
        | some d => overlap (l3Area c) (l3Area d) && (s.chartRegions d (i.groups.map (·.g))).any rs.contains)

/-- Every conflicting instance may be preempted by a BIND from a ring of priority `prio` (R366); `away` answers for
those of other chiplets. -/
def State.mayPreempt (s : State) (prio : BitVec 2) (xs : List (Region × SlotNo)) (away : Option Bool) : Bool :=
  (away == some true || away.isNone && xs.all fun x => ownSlot x.2) &&
    (xs.filter fun x => ownSlot x.2).all fun x =>
      let i := s.inst x.1 x.2
      (i.st == .running || i.st == .draining || i.st == .stopped) &&
        decide ((s.ring x.1 i.ring).prio.toNat < prio.toNat)

/-- A Running instance sent to Draining with a stop pending; a Draining one gets the stop. Its owner tells the
other chiplets (R361, R366). -/
def State.stopInst (s : State) (r : Region) (k : SlotNo) (f : Option RecRef) : State :=
  let s1 := s.onInst r k fun i =>
    match i.st with
    | .running | .draining =>
      { i with st := .draining, stopPending := true, stopRec := i.stopRec.orElse fun _ => f }
    | _ => i
  if ownSlot k then s1.tell r k .stop else s1

/-- Clusters of a placed chart given to an instance: position, MX_MODE, MX_EPI, VC_CFG, constants (R185). -/
def State.takeClusters (s : State) (r : Region) (k : SlotNo) (c : Chart) (kept : List Nat) : State :=
  (s.chartClusters c kept).foldl (fun s x =>
    s.onCluster x.1 fun y =>
      { y.release with
        inst := some (r, k), pos := some x.2, mode := BitVec.ofNat 32 (positionMode c x.2),
        epi := BitVec.ofNat 32 c.epi, vcCfg := BitVec.ofNat 32 (vcCfgOf c.vprog),
        consts := match c.vprog with
          | some v => if v.consts.isEmpty then y.consts else v.consts
          | none => y.consts }) s

/-! ## Counters (R205, R206) -/

/-- FIRST and LIMIT of a counter entry, with the tile count and bounds of the START (R205, R206). -/
def ctrRange (c : Chart) (bs : List Nat) (e : CtrEntry) : Nat × Nat :=
  match e.mode with
  | 0 => (0, tileCount c bs)
  | 1 => (e.first, e.limit)
  | _ => (bs.getD 6 0, bs.getD 7 0)

/-- VALUE and LIMIT of a counter of this chiplet set (R206). -/
def State.putCounter (s : State) (ctr value limit : Nat) : State :=
  s.onRegion (fin 7 (ctr / 128)) fun y =>
    { y with counters := vmod y.counters (fin 127 (ctr % 128)) fun _ =>
        ⟨BitVec.ofNat 64 value, BitVec.ofNat 64 limit⟩ }

/-- A counter set; one of another chiplet by its controller, which is told (R206; log 142). -/
def State.setCounter (s : State) (chip ctr value limit : Nat) : State :=
  if chip = s.pk.id.toNat then s.putCounter ctr value limit
  else s.emit (.toPkg (.counter chip ctr value limit))

/-- Every counter of a chart set to the ranges given (R206, R372). -/
def State.setCounters (s : State) (c : Chart) (vals : List (Nat × Nat)) : State :=
  (c.counters.zip vals).foldl (fun s x => s.setCounter x.1.chiplet x.1.counter x.2.1 x.2.2) s

/-! ## Starting clusters (R377, R379) -/

/-- The clusters of an instance that are not clocked join those that wait for a start slot, ties in
ascending 8r + c (R377, R379). -/
def State.wakeClusters (s : State) (r : Region) (k : SlotNo) : State :=
  (s.boundClusters r k).foldl (fun s c => s.wakeCluster c.1) s

/-- A group before its first draw (R188, R371). -/
def Group.fresh (g : Nat) (redo : List Nat) : Group :=
  { g := g, done := false, ahead := none, inPass := none, wb := [], redo := redo, lost := [] }

end Sys2Proof.Machine
end

