-- ==== Sys2Proof/Machine/Epilogue.lean ====
section
/-! DEFINITION. The tile epilogue of one element (04_matrix_array, R127-R137). -/

namespace Sys2Proof.Machine

/-- Activation of the epilogue (MX_EPI.ACT, R148). -/
inductive Act where
  | none
  | relu
  | table (t : ActTable)
  deriving DecidableEq, Repr

/-- What the epilogue of one tile is set to (MX_EPI, R62, R127). -/
structure EpiCfg where
  strict : Bool
  flush : Bool
  act : Act
  outFmt : Fmt
  deriving DecidableEq, Repr

/-- Scales and bias of one element as codes with their formats; absent is `none` (R62). -/
structure EpiIn where
  rscale : Option Nat
  cscale : Option Nat
  bias : Option (Fmt × Nat)
  deriving DecidableEq, Repr

/-- One element of the epilogue: its code, histogram bin and flags. -/
structure EpiOut where
  code : Nat
  bin : Nat
  subflush : Bool
  nonfinite : Bool
  deriving DecidableEq, Repr

/-- Histogram bin of R135. -/
def histBin (v : XVal) : Nat :=
  match v with
  | .fin _ m e => if m = 0 then 0 else (min (max (floorLog2 m e + 47) 1) 62).toNat
  | _ => 63

/-- Every exact zero formed before activation is +0 outside strict mode (R71). -/
def plusZero (v : XVal) : XVal := if v.isZero then .zero else v

/-- RELU on a value, without rounding (R128). -/
def relu (v : XVal) : XVal :=
  match v with
  | .nan => .nan
  | v => if v.isNeg then .zero else v

/-- A scale or bias read under FLUSH: its value and whether it was flushed (R62, R66). -/
def epiInput (flush : Bool) (f : Fmt) (c : Nat) : XVal × Bool :=
  let g := f.readFlush flush c
  (f.value g.1, g.2)

/-- A T16 scale, 1 when absent (R62). -/
def epiScale (flush : Bool) : Option Nat → XVal × Bool
  | none => (XVal.ofInt 1, false)
  | some c => epiInput flush .t16 c

/-- A bias, 0 when absent (R62). -/
def epiBias (flush : Bool) : Option (Fmt × Nat) → XVal × Bool
  | none => (.zero, false)
  | some (f, c) => epiInput flush f c

/-- Steps 3 to 5 of R127: activation and output conversion of the value after step 2. -/
def epiFinish (cfg : EpiCfg) (v : XVal) : Res :=
  let on := cfg.flush && !cfg.strict
  match cfg.act with
  | .none => epiConvert cfg.outFmt on v
  | .relu => epiConvert cfg.outFmt on (relu v)
  | .table t =>
    let y := t.eval (f32Val (pF32.encodeIeee .odd v))
    if cfg.outFmt = .f32p then
      let g := pF32.flush on y
      ⟨g.1, false, g.2⟩
    else epiConvert cfg.outFmt on (f32Val y)

/-- The value after step 2 outside strict mode: total to D48 rounded to odd, then scales and bias
exactly, rounded once to odd (R62, R69, R71, R127). -/
def epiScaled (cfg : EpiCfg) (i : EpiIn) (total : IVal) : XVal × Bool :=
  let d := (IVal.ofX 48 .odd (total.toX 80)).toX 48
  let r := epiScale cfg.flush i.rscale
  let c := epiScale cfg.flush i.cscale
  let b := epiBias cfg.flush i.bias
  if i.rscale.isNone && i.cscale.isNone && i.bias.isNone then (plusZero d, false)
  else ((IVal.ofX 48 .odd (((d.mul r.1).mul c.1).add false b.1)).toX 48 |> plusZero, r.2 || c.2 || b.2)

/-- The value after scaling in strict mode: the exact product acc × row scale × column scale, no bias
and no flush (R67, R111, R132). -/
def epiStrict (i : EpiIn) (acc : Nat) : XVal :=
  ((f32Val acc).mul (epiScale false i.rscale).1).mul (epiScale false i.cscale).1

/-- One element outside strict mode (R127). -/
def epiElement (cfg : EpiCfg) (i : EpiIn) (total : IVal) : EpiOut :=
  let v := epiScaled cfg i total
  let r := epiFinish cfg v.1
  ⟨r.code, histBin v.1, v.2 || r.subflush, cfg.outFmt.isNonfinite r.code⟩

/-- One element in strict mode (R111, R132): an F32 output with no scale and no activation is acc
itself. -/
def epiElementStrict (cfg : EpiCfg) (i : EpiIn) (acc : Nat) : EpiOut :=
  let v := epiStrict i acc
  let r := epiFinish cfg v
  ⟨r.code, histBin v, false, cfg.outFmt.isNonfinite r.code⟩

/-- A bias as the start of the strict chain: converted exactly to F32, +0 when absent (R110). -/
def strictStart : Option (Fmt × Nat) → Nat
  | none => 0
  | some (f, c) => f32Of (f.value c)

/-- Element formats the epilogue writes (R41, R148). -/
def epiOutOk (f : Fmt) : Bool :=
  f == .t8 || f == .t8w || f == .t16 || f == .f32 || f == .f32p

end Sys2Proof.Machine
end

