-- ==== Sys2Proof/Machine/ReqOps.lean ====
section
/-! DEFINITION. Requests that the chiplet sends: stacks, other chiplets, and the harbour gate outward
(R217, R248, R302, R310, R314-R316). -/

namespace Sys2Proof.Machine

/-! ## Tags and identifiers (R248, R302) -/

/-- The least number that a list does not hold. -/
def leastFree (used : List Nat) : Nat → Nat → Nat
  | 0, k => k
  | fuel + 1, k => if used.contains k then leastFree used fuel (k + 1) else k

/-- A free number below `n` that no outstanding request holds. -/
def freeNumber (used : List Outst) (n : Nat) : Option (BitVec 14) :=
  let k := leastFree (used.map (·.id.toNat)) used.length 0
  if k < n then some (BitVec.ofNat 14 k) else none

/-- A free tag of the pool of 16,384 (R248). -/
def State.freeTag (s : State) : Option (BitVec 14) := freeNumber s.proto.reads 16384

/-- A free write identifier of 4,096 (R302). -/
def State.freeId (s : State) : Option (BitVec 14) := freeNumber s.proto.writes 4096

/-- The requests outstanding. -/
def State.outstanding (s : State) : List Outst := s.proto.reads ++ s.proto.writes

/-- The partner accepts one more request on the port (R302, R306). -/
def State.mayRequest (s : State) (p : Port) : Bool :=
  let n := (s.outstanding.filter (·.x.port == p)).length
  ((s.port p).state == 2 || (s.port p).state == 3) && decide (n < sub (s.port p).partner 22 2)

/-- Tags held now (R253). -/
def State.tagsHeld (s : State) : Nat := s.proto.reads.length

/-- Tags that the engines of a region hold, of contexts that `p` names (R248, R252). -/
def State.regionTags (s : State) (r : Region) (p : Nat → Bool) : Nat :=
  (s.proto.reads.filter fun x => match x.x.use_ with
    | .ferry q id _ _ _ _ => q == r && p id
    | _ => false).length

/-- The pool and the region's FY_TAG_CAP allow one more tag (R248, R252). -/
def State.tagRoom (s : State) (r : Region) : Bool :=
  decide (s.proto.reads.length < 16384) &&
    decide (s.regionTags r (fun _ => true) < (s.regions.get r).fy.tagCap.toNat)

/-- A post is a read, which holds a tag. -/
def Post.isRead (x : Post) : Bool := x.op == 1

/-- The context that a post serves, by region and number. -/
def Post.context (x : Post) : Option (Region × Nat) :=
  match x.use_ with
  | .ferry r id _ _ _ _ | .ctxWrite r id _ => some (r, id)
  | _ => none

/-- Two posts may not be outstanding together: they touch one 64-byte block of a stack, or one context makes both
and they touch one block elsewhere (R305). -/
def Post.meets (x y : Post) : Bool :=
  x.port == y.port && (isMemory x.port || (x.context.isSome && x.context == y.context)) &&
    decide (x.addr / 64 * 64 < y.addr + y.len) && decide (y.addr / 64 * 64 < x.addr + x.len)

/-- A post may go now: the partner and its stream allow it, and no earlier request is at a block that
it must not share (R302, R303, R305). -/
def State.mayPost (s : State) (x : Post) : Bool :=
  s.mayRequest x.port && !(s.outstanding.any fun y => y.x.meets x) && !(s.proto.waiting.any fun y => y.meets x) &&
    (x.ostr == 0 || decide ((s.outstanding.filter fun y => y.x.port == x.port && y.x.ostr == x.ostr).length < 64))

/-- The flits of a request: MRD and MWR to a stack, the operation itself elsewhere (R293, R295, R297, R310). -/
def State.putRequest (s : State) (x : Post) (id : BitVec 14) : State :=
  let me := s.pk.id.toNat
  let mem := isMemory x.port
  let op := if mem then (if x.op = 1 then 6 else 7) else x.op
  let first := reqSlot op me id.toNat x.len x.ostr.toNat x.oseq.toNat x.atop x.addr
  let second := if mem then stackCrcs x.addr x.data else place x.op1.toNat 64 64 + x.op0.toNat
  let s1 := s.sendFlit x.port (msgFlit 0 (if opSlots op = 2 then [first, second] else [first]))
  if x.op = 2 then s1.sendFlit x.port (dataFlit 0 (if mem then 0 else addrChip x.addr) me id.toNat x.data) else s1

/-- A read sent under a tag (R248, R253). -/
def State.sendRead (s : State) (x : Post) (tag : BitVec 14) : State :=
  let s1 := s.putRequest x tag
  let reads := s1.proto.reads ++ [(⟨tag, false, x⟩ : Outst)]
  let peak := if s1.proto.tagPeak.toNat < reads.length then BitVec.ofNat 15 reads.length else s1.proto.tagPeak
  { s1 with proto := { s1.proto with reads := reads, tagPeak := peak } }

/-- Any other request sent under an identifier (R302). -/
def State.sendWrite (s : State) (x : Post) (id : BitVec 14) : State :=
  let s1 := s.putRequest x id
  { s1 with proto := { s1.proto with writes := s1.proto.writes ++ [(⟨id, false, x⟩ : Outst)] } }

/-- A request sent, or kept until it may go. -/
def State.post (s : State) (x : Post) : State :=
  let wait := { s with proto := { s.proto with waiting := s.proto.waiting ++ [x] } }
  if !s.mayPost x then wait
  else if x.isRead then
    match s.freeTag with
    | some t => s.sendRead x t
    | none => wait
  else
    match s.freeId with
    | some t => s.sendWrite x t
    | none => wait

/-- The requests that wait are tried again, in order. -/
def State.postWaiting (s : State) : State :=
  s.proto.waiting.foldl State.post { s with proto := { s.proto with waiting := [] } }

/-! ## Requests through a way -/

/-- An RD or WR through a way, sent or waiting. -/
def State.postWay (s : State) (x : Way) (op atop len : Nat) (data : List Byte) (op0 op1 : W64) (u : Purpose) : State :=
  let y := s.numbered x
  y.1.post
    { port := x.port, op := op, atop := atop, addr := x.addr, len := len, data := data, op0 := op0, op1 := op1,
      ostr := y.2.1, oseq := y.2.2, use_ := u }

end Sys2Proof.Machine
end

