-- ==== Sys2Proof/Machine/FerryOps.lean ====
section
/-! DEFINITION. Ferry engines: rows, padding, ADD, multicast, records, ends of contexts (R236-R250). -/

namespace Sys2Proof.Machine

/-! ## Contexts (R239, R240) -/

/-- Context `n` of the table (R239, R240). -/
def State.tableCtx (s : State) (n : Nat) : FerryCtx := FerryCtx.ofNat (memNat s.mem.ctx (64 * n) 64)

/-- Context `n` of the table written. -/
def State.putTableCtx (s : State) (n : Nat) (c : FerryCtx) : State :=
  { s with mem := { s.mem with ctx := memWriteN s.mem.ctx (64 * n) (natToBytes 64 c.toNat) } }

/-- A loaded context of a region. -/
def State.loaded (s : State) (r : Region) (id : Nat) : Option LoadedCtx :=
  (s.regions.get r).fy.loaded.find? (·.id == id)

/-- A loaded context passed through `f`. -/
def State.onLoaded (s : State) (r : Region) (id : Nat) (f : LoadedCtx → LoadedCtx) : State :=
  s.onFerry r fun y => { y with loaded := y.loaded.map fun c => if c.id = id then f c else c }

/-- A loaded context dropped. -/
def State.unload (s : State) (r : Region) (id : Nat) : State :=
  s.onFerry r fun y => { y with loaded := y.loaded.filter (·.id != id) }

/-- The engine's accesses: a cluster's own engine may read its shoal buffer (R21, R244). -/
def State.ferryUnit (s : State) (r : Region) (c : LoadedCtx) : Who :=
  { s.unit r with cluster := c.cluster, inst := c.inst.elim 0x7FF (fun x => s.instName x.1 x.2), tile := c.tile.getD (2 ^ 64 - 1) }

/-- A package address names control space of some chiplet (R220). -/
def inControl (a : Nat) : Bool := !testBit a 55 && testBit a 51 && field a 32 19 == 3

/-- A package address names lagoon, or shoal, of some chiplet (R219, R243). -/
def inLagoon (a : Nat) : Bool := !testBit a 55 && testBit a 51 && decide (field a 0 51 < 0x40000000)
def inShoal (a : Nat) : Bool :=
  !testBit a 55 && testBit a 51 && field a 32 19 == 1 && decide (field a 0 32 < 0x10000000)

/-- The destination breaks R243, or a place lies in control space (R220). -/
def FerryCtx.badPlace (c : FerryCtx) : Bool :=
  (c.op != 2 && inControl c.src) || inControl c.dst || (c.mc == 1 && !inShoal c.dst) ||
    (c.mc == 2 && !inLagoon c.dst)

/-- Rows of a context (R240). -/
def FerryCtx.total (c : FerryCtx) : Nat := c.rows * c.planes

/-- A context taken up: RUNNING, at CUR, or at 0 when CUR has reached the end (R239). -/
def FerryCtx.restart (c : FerryCtx) : FerryCtx :=
  { c with state := 1, cur := if c.cur < c.total then c.cur else 0 }

/-- Two source rows share the bytes of an N4 destination under TRANS (R43, R241). -/
def FerryCtx.nibbles (c : FerryCtx) : Bool := c.trans && c.fmt == 5

/-- A new engine context that begins at CUR. Where CUR is an odd row of an N4 transposition, the row ahead is
moved once more, for the nibbles that share its bytes (DESIGN CHOICE, log 137). -/
def LoadedCtx.mk' (id : Nat) (number : Option Nat) (cluster : Option Nat) (inst : Option (Region × SlotNo))
    (tile : Option Nat) (engine : Nat) (c : FerryCtx) : LoadedCtx :=
  let r := c.restart
  { id := id, number := number, cluster := cluster, inst := inst, tile := tile,
    c := if c.nibbles && r.cur % c.rows % 2 == 1 then { r with cur := r.cur - 1 } else r,
    rows := [], acks := 0, bytes := 0, flags := 0, keep := [], engine := engine, moved := 0 }

/-! ## Status and histogram records (R246, R247) -/

/-- What an update adds to a record (R247). -/
structure RecAdd where
  bytes : Nat
  tiles : Nat
  flags : Nat
  cause : Option Nat
  nf : Option (Nat × Nat × Nat)
  hist : List Nat
  deriving DecidableEq, Repr

/-- Lexicographic minimum of (tile, row, column) (R138, R247). -/
def nfMin (a b : Nat × Nat × Nat) : Nat × Nat × Nat :=
  if a.1 < b.1 ∨ (a.1 = b.1 ∧ (a.2.1 < b.2.1 ∨ (a.2.1 = b.2.1 ∧ a.2.2 ≤ b.2.2))) then a else b

/-- A record's 320 bytes after an update (R246, R247). -/
def recAfter (old : List Byte) (u : RecAdd) : List Byte :=
  let g := fun o n => sub old o n
  let nf := match u.nf with
    | none => (g 16 8, g 24 1, g 25 1)
    | some x => nfMin x (g 16 8, g 24 1, g 25 1)
  natToBytes 8 (g 0 8 + u.bytes) ++ natToBytes 8 (g 8 8 + u.tiles) ++ natToBytes 8 nf.1 ++
    natToBytes 1 nf.2.1 ++ natToBytes 1 nf.2.2 ++ natToBytes 1 (g 26 1 ||| u.flags) ++
    natToBytes 1 (match u.cause with
      | none => g 27 1
      | some c => setField (g 27 1) 0 4 c) ++
    (old.drop 28).take 36 ++
    (List.range 64).flatMap fun i => natToBytes 4 (satAdd 32 (g (64 + 4 * i) 4) (u.hist.getD i 0))

/-- A record updated as one access; dropped with a fault record when it lies outside the lagoon or its
blocks cannot be read (R246, R247, R369). -/
def W.recUpdate (w : W) (who : Who) (a : Nat) (u : RecAdd) : W :=
  if a = 0 then w
  else match w.s.locate a with
    | .lagoon off =>
      let x := w.lagoonRead off 320
      if x.2.1 ≠ .ok then x.1.accessFault who 6 a
      else x.1.on (·.lagoonPut off (recAfter x.2.2 u))
    | _ => w.accessFault who 5 a

/-- The record of a loaded context: REC, with the instance's record base when REC_REL is 1 (R238, R240).
A record base of 0 keeps no record. -/
def State.recordOf (s : State) (c : LoadedCtx) : Nat :=
  if c.c.recRel then
    match c.inst with
    | none => c.c.recAddr
    | some x =>
      let b := (s.inst x.1 x.2).recBase.toNat
      if b = 0 then 0 else (b + c.c.recAddr) % 2 ^ 56
  else c.c.recAddr

/-! ## Ends of contexts (R245, R249) -/

/-- Source row of a context's write, when the post is one. -/
def Post.ctxRow (x : Post) (r : Region) (id : Nat) : Option Nat :=
  match x.use_ with
  | .ctxWrite q i row => if q = r ∧ i = id then some row else none
  | _ => none

/-- Source rows of a context that are completely written: those before the first with a write that is not
acknowledged (R245). -/
def State.rowsWritten (s : State) (r : Region) (id cur : Nat) : Nat :=
  (((s.outstanding.map (·.x)) ++ s.proto.waiting).filterMap (·.ctxRow r id)).foldl min cur

/-- CUR of the table entry of a loaded context (R240). -/
def State.noteCur (s : State) (r : Region) (id : Nat) : State :=
  match s.loaded r id with
  | none => s
  | some c =>
    match c.number with
    | some n => s.putTableCtx n { c.c with cur := s.rowsWritten r id c.c.cur }
    | none => s

/-- FLAGS bit ERROR, and those of ADD (R246). -/
def flagError : Nat := 32

/-- Array CAUSE of an FY CAUSE (R245). -/
def arrayCause (fy : Nat) : BitVec 3 :=
  match fy with
  | 1 => 1 | 2 => 2 | 6 | 7 => 4 | 8 => 6 | _ => 3

/-- A context ends in error: table entry, record, CONTEXT fault record, instance; its rows stop (R245,
R249, R369). The fill of a tile leaves record and fault to the array's TILE_ABORT (R369). Responses still on
their way find no context and are discarded. -/
def W.ctxError (w : W) (r : Region) (id cause : Nat) : W :=
  match w.s.loaded r id with
  | none => w
  | some c =>
    let who := w.s.ferryUnit r c
    let w1 := w.on fun s => match c.number with
      | some n => s.putTableCtx n { c.c with cur := s.rowsWritten r id c.c.cur, state := 3, cause := cause }
      | none => s
    let w2 := w1.recUpdate who (w.s.recordOf c)
      ⟨c.bytes, 0, c.flags.toNat ||| flagError, some cause, none, []⟩
    let w3 := if c.tile.isSome then w2 else w2.fault r
      { source := 2, cause := cause, region := r.1, cluster := c.cluster.elim 0xF (· % 8), inst := who.inst,
        tile := who.tile, addr := c.c.src,
        detail := match c.number with
          | some n => n
          | none => 2 ^ 31 }
    w3.on fun s =>
      let fail := fun (x : Staged) => if x.ids.contains id then { x with failed := arrayCause cause } else x
      let s1 := (s.unload r id).onFerry r fun y => { y with staged := y.staged.map fail }
      match c.inst, c.tile with
      | some x, none => s1.faultInst x.1 x.2 4
      | _, _ => s1

/-- CAUSE of a failed access of a context: its place and status (R226, R244, R245, R310; log 17). -/
def causeOf (s : State) (a : Nat) (st : Status) : Nat :=
  if st = .poison then 1
  else if testBit a 55 then 7
  else if addrChip a ≠ s.pk.id.toNat then (if st = .refused then 7 else 6)
  else if !testBit a 51 then 2
  else 4

/-- CAUSE of an access by package address that failed: ADDRESS for one that was rejected here, else as its
place and status give (R220, R245, R340; log 17). -/
def accessCause (s : State) (a n : Nat) (write : Bool) (st : Status) : Nat :=
  match s.locateN a n with
  | .hole | .control .. => 4
  | .stack off => if write && s.inImage off n then 4 else causeOf s a st
  | _ => causeOf s a st

/-- CAUSE of a context's failed read: SHOAL for a word of its own cluster's buffer (R231, R245). -/
def LoadedCtx.readCause (c : LoadedCtx) (s : State) (a n : Nat) (st : Status) : Nat :=
  if inShoal a && c.cluster == some (field a 22 6) then 5 else accessCause s a n false st

/-! ## Multicast (R236, R243) -/

/-- Destinations of a write: one, or one for each cluster or region of the mask (R243). -/
def FerryCtx.dests (c : FerryCtx) (a : Nat) : List Nat :=
  let ids := (List.range 8).filter (testBit c.mcMask ·)
  match c.mc with
  | 1 => ids.map fun k => setField a 22 3 k
  | 2 => ids.map fun k => setField a 27 3 k
  | _ => [a]

/-- The next router from `x` towards `d`: first along the row, then between the rows; `x` itself at the
end (R233, R235). -/
def nextHop (x d : Nat) : Nat :=
  if x % 4 < d % 4 then x + 1 else if d % 4 < x % 4 then x - 1
  else if x / 4 = d / 4 then x else (x + 4) % 8

/-- Routers from `x` to `d`, both included (R235). -/
def hops (d : Nat) : Nat → Nat → List Nat
  | 0, x => [x]
  | fuel + 1, x => if x = d then [x] else x :: hops d fuel (nextHop x d)

/-- Copies that router `x` makes of a packet from `src` to `dests`: one fewer than the ways out (R236). -/
def copiesAt (src : Nat) (dests : List Nat) (x : Nat) : Nat :=
  let out := ((dests.filter fun d => (hops d 5 src).contains x).map fun d => if x = d then 8 else nextHop x d).eraseDups
  out.length - 1

/-- Multicast copies of a packet counted at a router (R252). -/
def State.noteCopies (s : State) (x : Region) (n : Nat) : State :=
  if n = 0 then s else s.onFerry x fun y => { y with mcCopies := y.mcCopies + BitVec.ofNat 64 n }

/-- The copies of one multicast write counted: at every router where the paths to the slices divide, or, for
clusters of one region, at that region's router (R236, R252; one packet for each row written, log 18). A
packet for another chiplet divides on that chiplet. -/
def State.countCopies (s : State) (src : Region) (c : FerryCtx) (dests : List Nat) : State :=
  if addrChip c.dst ≠ s.pk.id.toNat then s
  else if c.mc = 1 then s.noteCopies (fin 7 (field c.dst 25 3)) (dests.length - 1)
  else if c.mc = 2 then
    ((List.range 8).map (fin 7)).foldl (fun s x =>
      s.noteCopies x (copiesAt src.1 (dests.map fun d => field d 27 3) x.1)) s
  else s

/-! ## Writing rows (R241, R242) -/

/-- One piece of a row sent beyond the chiplet; a part of a stack block is first read and merged (R310).
Answers the cause of an error, 0 for none. -/
def W.sendPiece (w : W) (r : Region) (id a : Nat) (bs : List Byte) : W × Nat :=
  let x := w.exit a .write
  match x.2 with
  | .inr st => (x.1, causeOf w.s a st)
  | .inl v =>
    let put := fun (w : W) (adr : Nat) (bs : List Byte) =>
      w.on fun s =>
        let row := ((s.loaded r id).map (·.c.cur)).getD 0
        (s.postWay { v with addr := adr } 2 0 bs.length bs 0 0 (.ctxWrite r id row)).onLoaded r id fun c =>
          { c with acks := c.acks + 1 }
    if isMemory v.port && (v.addr % 64 != 0 || bs.length % 64 != 0) then
      let lo := v.addr / 64 * 64
      let n := (v.addr + bs.length + 63) / 64 * 64 - lo
      let y := x.1.askBlocks { v with addr := lo } n
      if y.2.1 = .ok then
        (put y.1 lo (y.2.2.take (v.addr - lo) ++ bs ++ y.2.2.drop (v.addr - lo + bs.length)), 0)
      else (y.1, 2)
    else (put x.1 v.addr bs, 0)

/-- Every piece of `bs` sent beyond the chiplet. -/
def W.sendPieces (w : W) (r : Region) (id a : Nat) (bs : List Byte) : List (Nat × Nat) → W × Nat
  | [] => (w, 0)
  | (off, n) :: ps =>
    let x := w.sendPiece r id (a + off) ((bs.drop off).take n)
    if x.2 ≠ 0 then x else x.1.sendPieces r id a bs ps

/-- Bytes written at one destination; answers the cause of an error, 0 for none (R220, R244, R245). -/
def W.ferryPut (w : W) (r : Region) (c : LoadedCtx) (a : Nat) (bs : List Byte) : W × Nat :=
  let local_ := fun (w : W) =>
    let x := w.write (w.s.ferryUnit r c) a bs
    (x.1, if x.2 = .ok then 0 else accessCause w.s a bs.length true x.2)
  match w.s.locateN a bs.length with
  | .stack off =>
    if w.s.inImage off bs.length then local_ w
    else w.sendPieces r c.id a bs (pieces a bs.length (bs.length + 1) 0)
  | .away => w.sendPieces r c.id a bs (pieces a bs.length (bs.length + 1) 0)
  | _ => local_ w

/-- Bytes written at every destination of the multicast. -/
def W.ferryPutAll (w : W) (r : Region) (c : LoadedCtx) (bs : List Byte) : List Nat → W × Nat
  | [] => (w, 0)
  | a :: as =>
    let x := w.ferryPut r c a bs
    if x.2 ≠ 0 then x else x.1.ferryPutAll r c bs as

/-- Bytes counted to the engines that wrote them (R251, R252). -/
def State.countBytes (s : State) (r : Region) (c : LoadedCtx) (n : Nat) : State :=
  let s1 := s.onLoaded r c.id fun y => { y with bytes := y.bytes + n }
  match c.cluster with
  | none => s1.onFerry r fun y => { y with bytes := y.bytes + BitVec.ofNat 64 n }
  | some k => s1.onCluster (fin 63 k) fun y => { y with fyBytes := y.fyBytes + BitVec.ofNat 64 n }

/-- Elements written from column `col0` of destination row `j` of plane `p`, after ADD into what stands
there when OP is ADD; answers the cause of an error (R241-R243). Under multicast ADD reads the place that DST
names and writes the sum to every destination (DESIGN CHOICE, log 131). -/
def W.putElems (w : W) (r : Region) (c : LoadedCtx) (f : Fmt) (p j col0 : Nat) (es : List Nat) : W × Nat :=
  let a := (c.c.dstRow p j + colBytes f col0) % 2 ^ 56
  let n := rowBytes f es.length
  if n = 0 then (w, 0)
  else
    let x := if c.c.op = 1 then w.read (w.s.ferryUnit r c) a n else (w, .ok, [])
    if x.2.1 ≠ .ok then (x.1, c.readCause w.s a n x.2.1)
    else
      let old := unpackElems f es.length x.2.2
      let sums := (old.zip es).map fun d => floatOp ⟨false, .ne, c.c.flush⟩ .fadd f d.1 d.2 0
      let es1 := if c.c.op = 1 then sums.map (·.code) else es
      let fl := if c.c.op = 1 then
          bit (es1.any f.isNonfinite) + 2 * bit (sums.any (·.subflush)) else 0
      let bs := packElems f es1
      let ds := c.c.dests a
      let y := x.1.ferryPutAll r c bs ds
      if y.2 ≠ 0 then y
      else
        (y.1.on fun s =>
          ((s.countBytes r c (bs.length * ds.length)).onLoaded r c.id fun z =>
            { z with flags := z.flags ||| BitVec.ofNat 8 fl }).countCopies r c.c ds, 0)

/-- Rows written one after another; stops at the first error. -/
def W.putRows (w : W) (r : Region) (c : LoadedCtx) (f : Fmt) (p : Nat) : List (Nat × Nat × List Nat) → W × Nat
  | [] => (w, 0)
  | (j, col0, es) :: rest =>
    let x := w.putElems r c f p j col0 es
    if x.2 ≠ 0 then x else x.1.putRows r c f p rest

/-- PAD_COLS elements of +0, none under ADD (R242). -/
def FerryCtx.padRow (c : FerryCtx) : List Nat := if c.op = 1 then [] else List.replicate c.padCols 0

/-- The PAD_ROWS rows that follow a plane's rows, none under ADD (R242). -/
def FerryCtx.padPlane (c : FerryCtx) : List (Nat × Nat × List Nat) :=
  if c.op = 1 then []
  else (List.range c.padRows).map fun i => (c.dstRows + i, 0, List.replicate (c.dstCols + c.padCols) 0)

/-- Destination rows that source row `i` with elements `es` completes, as (row, first column, elements);
a transposed context writes one column, and the padding after the last (R241, R242). An odd column of an N4
transposition goes with the even one ahead of it, `keep`, whose bytes it shares (R43). -/
def FerryCtx.rowsOf (c : FerryCtx) (keep : List Nat) (i : Nat) (es : List Nat) : List (Nat × Nat × List Nat) :=
  let last := i + 1 == c.rows
  let pair := c.nibbles && i % 2 == 1
  let body := if c.trans then
      (List.range c.cols).map fun j =>
        (j, if pair then i - 1 else i,
          (if pair then [keep.getD j 0] else []) ++ es.getD j 0 :: (if last then c.padRow else []))
    else [(i, 0, es ++ c.padRow)]
  body ++ (if last then c.padPlane else [])

/-- What a plane without source rows writes: the padding of its destination rows, and the rows after them
(R242). -/
def FerryCtx.emptyPlane (c : FerryCtx) : List (Nat × Nat × List Nat) :=
  ((List.range c.dstRows).map fun j => (j, 0, c.padRow)) ++ c.padPlane

/-- CUR advanced in engine and table past a row of elements `es` (R245). -/
def State.advance (s : State) (r : Region) (id : Nat) (es : List Nat) : State :=
  match s.loaded r id with
  | none => s
  | some c =>
    let c1 := { c.c with cur := c.c.cur + 1 }
    (s.onLoaded r id fun y =>
      { y with c := c1, rows := y.rows.filter (fun b => b.row != c.c.cur),
               keep := if c.c.nibbles && c.c.cur % c.c.rows % 2 == 0 then es else [] }).noteCur r id

/-- A source row written to its destination; an error ends the context (R241, R245). -/
def W.writeRow (w : W) (r : Region) (id : Nat) (c : LoadedCtx) (f : Fmt) (es : List Nat) : W :=
  let x := w.putRows r c f (c.c.cur / c.c.rows) (c.c.rowsOf c.keep (c.c.cur % c.c.rows) es)
  if x.2 ≠ 0 then x.1.ctxError r id x.2 else x.1.on (·.advance r id es)

/-- The elements of the context's next row when they are at hand: zeros for ZERO, a read of this
chiplet's own memories, or a row received; the cause of an error; none while pieces are missing. -/
def W.nextRow (w : W) (r : Region) (c : LoadedCtx) (f : Fmt) : W × Option (List Nat ⊕ Nat) :=
  let p := c.c.cur / c.c.rows
  let i := c.c.cur % c.c.rows
  let a := c.c.srcRow p i
  let n := rowBytes f c.c.cols
  if c.c.op = 2 then (w, some (.inl (List.replicate c.c.cols 0)))
  else if n = 0 then (w, some (.inl []))
  else match w.s.locateN a n with
    | .stack _ | .away =>
      match c.rows.find? (·.row == c.c.cur) with
      | some b => if b.need.isEmpty ∧ b.asked = 0 then
            let m := b.got.foldl (fun m x => memWriteN m x.1 x.2) []
            (w, some (.inl (unpackElems f c.c.cols (memReadN m 0 n))))
          else (w, none)
      | none => (w, none)
    | _ =>
      let x := w.read (w.s.ferryUnit r c) a n
      if x.2.1 = .ok then (x.1, some (.inl (unpackElems f c.c.cols x.2.2)))
      else (x.1, some (.inr (c.readCause w.s a n x.2.1)))

/-- Rows moved one after another while they are at hand (R237, R241). -/
def W.pump (w : W) (r : Region) (id : Nat) : Nat → W
  | 0 => w
  | fuel + 1 =>
    match w.s.loaded r id with
    | none => w
    | some c =>
      match Fmt.ofCode c.c.fmt with
      | none => w.ctxError r id 3
      | some f =>
        if c.c.total ≤ c.c.cur then w
        else
          let x := w.nextRow r c f
          match x.2 with
          | none => x.1
          | some (.inr cause) => x.1.ctxError r id cause
          | some (.inl es) => (x.1.writeRow r id c f es).pump r id fuel

/-- The planes of a context without source rows, padded; the cause of an error (R242). -/
def W.padEmpty (w : W) (r : Region) (c : LoadedCtx) (f : Fmt) : List Nat → W × Nat
  | [] => (w, 0)
  | p :: ps =>
    let x := w.putRows r c f p c.c.emptyPlane
    if x.2 ≠ 0 then x else x.1.padEmpty r c f ps

/-- A loaded context begins: its format and places are checked, and the rows at hand move, or, with no source
row, the padding is written (R220, R240, R242, R243). -/
def W.beginCtx (w : W) (r : Region) (id : Nat) : W :=
  match w.s.loaded r id with
  | none => w
  | some c =>
    if c.c.badFormat then w.ctxError r id 3
    else if c.c.badPlace then
      let who := w.s.ferryUnit r c
      let w1 := if inControl c.c.src && c.c.op != 2 then w.accessFault who 1 c.c.src else w
      let w2 := if inControl c.c.dst then w1.accessFault who 2 c.c.dst else w1
      w2.ctxError r id 4
    else if c.c.rows = 0 then
      let x := w.padEmpty r c ((Fmt.ofCode c.c.fmt).getD .t8) (List.range c.c.planes)
      if x.2 ≠ 0 then x.1.ctxError r id x.2 else x.1
    else w.pump r id (c.c.total + 1)

/-! ## Starting table contexts (R239, R252) -/

/-- A start of context `n` in region `r`: queued, dropped with a fault record, or ignored (R239). -/
def W.startCtx (w : W) (r : Region) (n : Nat) : W :=
  let f := (w.s.regions.get r).fy
  if n / 32768 ≠ r.1 then w.fault r { source := 9, cause := 1, region := r.1, detail := n }
  else if f.queue.contains n || f.loaded.any (·.number == some n) then w
  else if 4096 ≤ f.queue.length then
    (w.on (·.onFerry r fun y => { y with drops := y.drops + 1 })).fault r
      { source := 9, cause := 2, region := r.1, detail := n }
  else w.on fun s =>
    (s.putTableCtx n { s.tableCtx n with state := 1 }).onFerry r fun y => { y with queue := y.queue ++ [n] }

end Sys2Proof.Machine
end

