-- ==== Sys2Proof/Machine/ArrayOps.lean ====
section
/-! DEFINITION. Where a cluster's operands stand, staging slots, tiles of groups, and sum-chain buffers
(R121, R122, R188, R192, R197, R200, R201). -/

namespace Sys2Proof.Machine

/-! ## Coordinates of argument slots (R190) -/

/-- Row and column of argument slot `i` that (m, n, k) reach; along a block-scaled axis the block that
holds the coordinate (R190). -/
def slotCoord (c : Chart) (i : Nat) (trans : Bool) (m n k : Nat) : Nat × Nat :=
  let d := fun x s => x / max s 1
  match i with
  | 0 => if trans then (k, m) else (m, k)
  | 1 => if trans then (n, k) else (k, n)
  | 3 | 12 => (0, m)
  | 4 | 5 => (0, n)
  | 6 => (0, if modeWside c.mode then n else m)
  | 7 => (0, 0)
  | 8 => if bsAcross c.bsA then (d m (bsSize c.bsA), k) else (m, d k (bsSize c.bsA))
  | 9 => if bsAcross c.bsB then (k, d n (bsSize c.bsB)) else (d k (bsSize c.bsB), n)
  | _ => (m, n)

/-- Rows and columns of argument slot `i` under the bounds M, N and K (R190). -/
def slotExtent (c : Chart) (i : Nat) (trans : Bool) (m n k : Nat) : Nat × Nat :=
  let d := fun x s => ceilDiv x (max s 1)
  match i with
  | 3 | 12 => (1, m)
  | 4 | 5 => (1, n)
  | 6 => (1, if modeWside c.mode then n else m)
  | 7 => (c.expT, 16)
  | 8 => if bsAcross c.bsA then (d m (bsSize c.bsA), k) else (m, d k (bsSize c.bsA))
  | 9 => if bsAcross c.bsB then (k, d n (bsSize c.bsB)) else (d k (bsSize c.bsB), n)
  | _ => slotCoord c i trans m n k

/-! ## Where elements stand -/

/-- A tensor in memory: an argument (R192) or a staged block (R197). `chip` replaces address bits
[54:52] for an argument with LOCAL; `swap` marks a block stored with rows and columns exchanged. -/
structure Src where
  base : Nat
  rs : Nat
  ps : Nat
  bs : Nat
  row0 : Nat
  col0 : Nat
  b10 : Nat
  b20 : Nat
  swap : Bool
  chip : Option Nat
  deriving DecidableEq, Repr

/-- Address of element (row, col) at (b1, b2) (R192). -/
def Src.at (x : Src) (f : Fmt) (bytes : Bool) (row col b1 b2 : Nat) : Nat :=
  let i := if x.swap then col - x.col0 else row - x.row0
  let j := if x.swap then row - x.row0 else col - x.col0
  let a := (x.base + (b2 - x.b20) * x.bs + (b1 - x.b10) * x.ps + i * x.rs +
    (if bytes then j else colBytes f j)) % 2 ^ 56
  match x.chip with
  | some d => setField a 52 3 d
  | none => a

/-- An argument as it stands in memory, read by a position of chiplet `chip`. -/
def argSrc (a : ArgEntry) (chip : Nat) : Src :=
  { base := a.base, rs := a.strideRow, ps := a.strideB1, bs := a.strideB2, row0 := 0, col0 := 0, b10 := 0,
    b20 := 0, swap := false, chip := if a.isLocal then some chip else none }

/-- A pattern's blocks reach cluster `k`: its region, or the cluster in its region, stands in the mask, or the
mask is 0 (R203). -/
def Pattern.serves (p : Pattern) (k : Nat) : Bool :=
  if p.level = 0 then p.regionMask == 0 || testBit p.regionMask (k / 8)
  else p.level == 3 || p.clusterMask == 0 || testBit p.clusterMask (k % 8)

/-- The first pattern of a level for an argument slot that serves cluster `k`, with its index (R203, R204). -/
def Chart.patternFor (c : Chart) (lv i k : Nat) : Option (Pattern × Nat) :=
  c.patterns.zipIdx.find? fun x => x.1.level == lv && x.1.arg == i && x.1.serves k

/-- Row and column of argument slot `i` where a block with origin `o` begins; CONST begins at the row of the
block's first tile (R190). -/
def slotOrigin (c : Chart) (bs : List Nat) (i : Nat) (trans : Bool) (o : Nat → Nat) : Nat × Nat :=
  if i = 13 then (tileAt c bs o, 0) else slotCoord c i trans (o 0) (o 1) (o 2)

/-- Rows and columns of argument slot `i` under the bounds (R190). -/
def slotBound (c : Chart) (bs : List Nat) (i : Nat) (trans : Bool) : Nat × Nat :=
  if i = 13 then (tileCount c bs, 2048)
  else slotExtent c i trans (boundOf bs 0) (boundOf bs 1) (boundOf bs 2)

/-- Format in which slot `i` counts columns: bytes for CONST (R192). -/
def slotFmt (i fmt : Nat) : Option Fmt := if i = 13 then some .e8 else Fmt.ofCode fmt

/-- The region or cluster that drives a pattern's staging for cluster `k`: the position's own, or the
lowest of the mask (R204). -/
def Pattern.driver (p : Pattern) (k : Nat) : Nat :=
  let low := fun m => (firstBelow 8 (testBit m)).getD 0
  if p.level = 0 then (if p.regionMask = 0 then k / 8 else low p.regionMask)
  else if p.clusterMask = 0 then k else 8 * (k / 8) + low p.clusterMask

/-- Region whose ferries a driver of a level uses. -/
def driverRegion (lv drv : Nat) : Region := fin 7 (if lv = 0 then drv else drv / 8)

/-- Bytes of a slot that stand ahead of pattern `n` of a level (R197). -/
def areaOffset (c : Chart) (lv n : Nat) : Nat :=
  let l := if lv = 0 then c.l3 else c.l2
  (((c.patterns.take n).filter (·.level == lv)).map (blockBytes c l)).foldl (· + ·) 0

/-- Package address of byte 0 of pattern `n`'s block in a slot: in a region's slice, or in a cluster's
shoal buffer (R196, R197). -/
def State.blockPlace (s : State) (c : Chart) (lv n unit slot : Nat) : Nat :=
  if lv = 0 then s.onChip (unit * 2 ^ 27 + c.l3.buf + slot * slotBytes c 0 + areaOffset c 0 n)
  else s.onChip (2 ^ 32 + unit * 0x400000 + c.l2.buf + slot * slotBytes c 1 + areaOffset c 1 n)

/-- The loop descriptor of a staging level. -/
def Chart.stageLoop (c : Chart) (lv : Nat) : Loop := if lv = 0 then c.l3 else c.l2

/-- Block coordinates of an origin (M, N, K, B1, B2) in units of a level's extents (R199). -/
def blockCoords (l : Loop) (o : List Nat) : List Nat :=
  (List.range 5).map fun d => o.getD d 0 / max (l.ext d) 1

/-- A staged block as a tensor: rows one after another, batch planes outermost (R197). -/
def State.blockSrc (s : State) (c : Chart) (bs : List Nat) (lv n unit : Nat) (x : Staged) (i : Nat)
    (trans swap : Bool) : Src :=
  let l := c.stageLoop lv
  let o := fun d => x.coords.getD (d + 1) 0 * l.ext d
  let f := (slotFmt i (c.args.getD i (ArgEntry.ofNat 0)).fmt).getD .t8
  let sh := blockShape c l i trans
  let rs := rowBytes f (if swap then sh.1 else sh.2)
  let ps := (if swap then sh.2 else sh.1) * rs
  let at0 := slotOrigin c bs i trans o
  { base := s.blockPlace c lv n unit x.slot, rs := rs, ps := ps, bs := ps * max l.tb1 1, row0 := at0.1,
    col0 := at0.2, b10 := o 3, b20 := o 4, swap := swap, chip := none }

/-- A block staged in full (R200). -/
def State.stagedBlock (s : State) (me : Region × SlotNo) (lv n drv : Nat) (coords : List Nat) :
    Option Staged :=
  (s.regions.get (driverRegion lv drv)).fy.staged.find? fun x =>
    x.inst == me && x.pat == n && x.level == lv && x.coords == drv :: coords && x.left == 0

/-- The array CAUSE of a block whose staging ended in error (R145). -/
def State.stageFault (s : State) (me : Region × SlotNo) (c : Chart) (k i : Nat) (o : List Nat) :
    Option (BitVec 3) :=
  [0, 1].findSome? fun lv => (c.patternFor lv i k).bind fun x =>
    let drv := x.1.driver k
    ((s.regions.get (driverRegion lv drv)).fy.staged.find? fun y =>
      y.inst == me && y.pat == x.2 && y.level == lv && y.failed != 0 &&
        y.coords == drv :: blockCoords (c.stageLoop lv) o).map (·.failed)

/-- Where cluster `k` reads argument slot `i` at origin `o` for use at level `lv` (1 L2, 2 the array):
the block staged closest to it, or the argument where no pattern stages it; none while the block is not
staged (R196, R198, R203). -/
def State.src (s : State) (me : Region × SlotNo) (c : Chart) (args : List Byte) (k lv i : Nat)
    (o : List Nat) : Option Src :=
  let a := boundArg c args i
  let bs := (s.inst me.1 me.2).bounds
  let far := c.patternFor 0 i k
  let near := (c.patternFor 1 i k).filter fun _ => c.l2.slots != 0 && lv == 2
  let farSwap := far.elim false fun x => x.1.ctx.trans
  match near, far with
  | some (p, n), _ =>
    (s.stagedBlock me 1 n (p.driver k) (blockCoords c.l2 o)).map fun x =>
      s.blockSrc c bs 1 n k x i a.trans (p.ctx.trans != farSwap)
  | none, some (p, n) =>
    (s.stagedBlock me 0 n (p.driver k) (blockCoords c.l3 o)).map fun x =>
      s.blockSrc c bs 0 n (k / 8) x i a.trans farSwap
  | none, none => some (argSrc a s.pk.id.toNat)

/-! ## Tiles of clusters and groups (R188, R201) -/

/-- Slot of the `n`-th tile of a position: 0 and 1 in turn (R201). -/
def Chart.turnSlot (c : Chart) (n : Nat) : Nat := if c.l1addr.slotStride = 0 then 0 else n % 2

/-- Shoal offset of an area in a slot (R201). -/
def Chart.area (c : Chart) (off slot : Nat) : Nat := off + slot * c.l1addr.slotStride

/-- Tiles that a cluster holds, from the oldest: output slots, chain, queue, drain, promotion, pass. -/
def ClusterSt.held (y : ClusterSt) : List (Nat × Nat) :=
  (y.outs.map fun o => (o.index, o.slot)) ++ (y.vc.toList.map fun v => (v.e.index, v.e.slot)) ++
    (y.queue.map fun q => (q.index, q.slot)) ++ (y.drain.toList.map fun d => (d.index, d.slot)) ++
    (y.promo.toList.map fun p => (p.index, p.slot)) ++ (y.tile.toList.map fun t => (t.index, t.slot))

/-- Slot of a tile that a cluster holds or has been issued. -/
def ClusterSt.slotOf (y : ClusterSt) (c : Chart) (t : Nat) : Option Nat :=
  match y.held.find? (·.1 == t) with
  | some x => some x.2
  | none => (y.issued.findIdx? (· == t)).map fun j => c.turnSlot (y.turn + j)

/-- A cluster has nothing left of a tile. -/
def ClusterSt.doneWith (y : ClusterSt) (t : Nat) : Bool :=
  !y.issued.contains t && !y.held.any (·.1 == t)

/-- A cluster's array has completed a tile, or never had it. -/
def ClusterSt.arrayDone (y : ClusterSt) (t : Nat) : Bool :=
  !y.issued.contains t && !y.tile.any (·.index == t) && !y.promo.any (·.index == t) &&
    !y.drain.any (·.index == t)

/-- Clusters of this chiplet that hold positions of group `g`. -/
def State.groupClusters (s : State) (me : Region × SlotNo) (g : Nat) : List (Fin 64) :=
  (s.boundClusters me.1 me.2).filter fun k => (s.clusters.get k).pos.any (·.group == g)

/-- Group `g` of a chart is led by a position of this chiplet (R188). -/
def State.leads (s : State) (c : Chart) (g : Nat) : Bool := (c.leader g).any (·.chiplet == s.pk.id.toNat)

/-- A group passed through `f`. -/
def State.onGroup (s : State) (me : Region × SlotNo) (g : Nat) (f : Group → Group) : State :=
  s.onInst me.1 me.2 fun i => { i with groups := i.groups.map fun x => if x.g = g then f x else x }

/-- Tiles of a group whose last part is written leave the list of those under way, and count on the chiplet that
leads the group (R370; log 142). -/
def State.settleTiles (s : State) (me : Region × SlotNo) (g : Nat) : State :=
  let ks := s.groupClusters me g
  let left := fun t => ks.any fun k => !(s.clusters.get k).doneWith t
  match (s.inst me.1 me.2).groups.find? (·.g == g) with
  | none => s
  | some x =>
    let kept := x.wb.filter left
    let n := if (s.inst me.1 me.2).chart.all (s.leads · g) then (x.wb.filter fun t => !left t && !x.lost.contains t).length else 0
    (s.onGroup me g fun y => { y with wb := kept }).onInst me.1 me.2 fun i =>
      { i with tiles := i.tiles + BitVec.ofNat 64 n }

/-- A tile of a group that must be done again (R371). -/
def State.loseTile (s : State) (me : Region × SlotNo) (g t : Nat) : State :=
  s.onGroup me g fun y => { y with lost := setInsert t y.lost }

/-- The tiles that a group must do again, ascending: lost tiles, the index drawn ahead, redo entries not
yet computed (R371). -/
def Group.owed (g : Group) : List Nat :=
  (g.lost ++ g.ahead.toList ++ g.redo).foldl (fun l x => setInsert x l) []

/-- Groups in ascending number. -/
def sortGroups (gs : List Group) : List Group :=
  (List.range 512).flatMap fun n => gs.filter (·.g == n)

/-- Steps `[k0, k1)` that a tile in pass has not yet streamed for the last time (R99, R198, R200). -/
def Tile.needs (t : Tile) (pairs k0 k1 : Nat) : Bool :=
  let hit := fun a b => decide (max k0 a < min k1 b)
  let e := min (t.block + 65536) t.kEnd
  hit t.k e || (decide (t.pair + 1 < pairs) && hit t.block e) || hit e t.kEnd

/-- Steps of K that a position sums (R100). -/
def posSteps (c : Chart) (p : Position) (k : Nat) : Nat × Nat :=
  let l := shapeChain (modeShape c.mode)
  (sliceStart (kPad k) l p.chainPos, sliceEnd (kPad k) l p.chainPos)

/-- A cluster still needs a staged block for a tile issued to it (R200). -/
def ClusterSt.needsBlock (y : ClusterSt) (c : Chart) (bs : List Nat) (lv : Nat) (coords : List Nat) : Bool :=
  let l := c.stageLoop lv
  let same := fun t => [0, 1, 3, 4].all fun d => tileOrigin c bs t d / max (l.ext d) 1 == coords.getD (d + 1) 0
  let k0 := coords.getD 3 0 * l.tk
  let k1 := k0 + l.tk
  let pairs := ((modeNum c.mode).getD .standard).pairs.length
  let mine := (y.pos.map fun p => posSteps c p (boundOf bs 2)).getD (0, 0)
  y.issued.any (fun t => same t && decide (max k0 mine.1 < min k1 mine.2)) ||
    y.tile.any (fun t => same t.index && t.needs pairs k0 k1) || y.promo.any fun p => same p.index

/-! ## The stager's order (R198, R200, R204) -/

/-- Regions, or clusters, that a block of a pattern serves: of the mask, or the driver's own (R203, R204). -/
def Pattern.units (p : Pattern) (drv : Nat) : List Nat :=
  if p.level = 0 then (if p.regionMask = 0 then [drv] else (List.range 8).filter (testBit p.regionMask))
  else if p.clusterMask = 0 then [drv]
  else ((List.range 8).filter (testBit p.clusterMask)).map (8 * (drv / 8) + ·)

/-- Unit of a level that a cluster belongs to. -/
def unitOf (lv k : Nat) : Nat := if lv = 0 then k / 8 else k

/-- Clusters of an instance in one unit. -/
def State.unitClusters (s : State) (me : Region × SlotNo) (lv u : Nat) : List (Fin 64) :=
  (s.boundClusters me.1 me.2).filter fun k => unitOf lv k.1 == u

/-- Tiles issued to a cluster and not yet through their last promotion. -/
def ClusterSt.inHand (y : ClusterSt) : List Nat :=
  y.issued ++ y.tile.toList.map (·.index) ++ y.promo.toList.map (·.index)

/-- Coordinates of every block of a level along K for tile `t`, ascending (R198). -/
def tileBlocks (c : Chart) (bs : List Nat) (lv t : Nat) : List (List Nat) :=
  let l := c.stageLoop lv
  (List.range (ceilDiv (kPad (boundOf bs 2)) (max l.tk 1))).map fun j =>
    (List.range 5).map fun d => if d = 2 then j else tileOrigin c bs t d / max (l.ext d) 1

/-- Blocks that the issued tiles of a driver's own positions still have to stream (R200, R204). -/
def State.wanted (s : State) (me : Region × SlotNo) (c : Chart) (bs : List Nat) (lv drv : Nat) : List (List Nat) :=
  (s.unitClusters me lv drv).flatMap fun k =>
    let y := s.clusters.get k
    y.inHand.flatMap fun t => (tileBlocks c bs lv t).filter fun x => y.needsBlock c bs lv (drv :: x)

/-- The next index that a group may compute: the first redo entry, or what its counter hands out next; of a
counter on another chiplet, one past the largest index seen (R200, R206, R372). -/
def State.nextIndex (s : State) (me : Region × SlotNo) (c : Chart) (g : Nat) : Option Nat :=
  let i := s.inst me.1 me.2
  match i.groups.find? (·.g == g), c.leader g with
  | some y, some p =>
    let v := match y.redo with
      | t :: _ => t
      | [] =>
        if p.ctrChiplet = s.pk.id.toNat then
          ((s.regions.get (fin 7 (p.counter / 128))).counters.get (fin 127 (p.counter % 128))).value.toNat
        else ((y.ahead.toList ++ y.inPass.toList ++ y.wb).map (· + 1)).foldl max 0
    if y.done || decide (tileCount c i.bounds ≤ v) then none else some v
  | _, _ => none

/-- First places, in a level's order, of the blocks that the next indices of a driver's positions need. -/
def State.nextRanks (s : State) (me : Region × SlotNo) (c : Chart) (bs : List Nat) (lv drv : Nat) : List Nat :=
  (s.unitClusters me lv drv).filterMap fun k =>
    (s.clusters.get k).pos.bind fun q => (s.nextIndex me c q.group).bind fun t =>
      let e := posSteps c q (boundOf bs 2)
      let tk := (c.stageLoop lv).tk
      ((tileBlocks c bs lv t).find? fun x =>
        decide (max (x.getD 2 0 * tk) e.1 < min ((x.getD 2 0 + 1) * tk) e.2)).map (blockRank c bs lv)

/-- A block lies within the bounds (R139, R198). -/
def blockValid (c : Chart) (bs : List Nat) (lv : Nat) (coords : List Nat) : Bool :=
  coords.length == 5 && (List.range 5).all fun d =>
    decide (coords.getD d 0 * (c.stageLoop lv).ext d < boundOf bs d)

/-- A block stands in, or is on its way to, a slot of its driver. -/
def State.holdsBlock (s : State) (me : Region × SlotNo) (lv n drv : Nat) (coords : List Nat) : Bool :=
  (s.regions.get (driverRegion lv drv)).fy.staged.any fun x =>
    x.inst == me && x.pat == n && x.level == lv && x.coords == drv :: coords

/-- The block that a driver's stager takes up next for a pattern: the first in the level's order that an issued
tile still has to stream; with none missing, the first that is not there from the needs of a next index on
(R198, R200). -/
def State.stagerAt (s : State) (me : Region × SlotNo) (c : Chart) (bs : List Nat) (lv n drv : Nat)
    (coords : List Nat) : Bool :=
  let rank := blockRank c bs lv
  let lacking := (s.wanted me c bs lv drv).filter fun x => !s.holdsBlock me lv n drv x
  if !lacking.isEmpty then lacking.contains coords && lacking.all fun x => decide (rank coords ≤ rank x)
  else (s.nextRanks me c bs lv drv).any fun from_ =>
    decide (from_ ≤ rank coords) && (List.range (rank coords - from_)).all fun j =>
      let x := blockOf c bs lv (from_ + j)
      !blockValid c bs lv x || s.holdsBlock me lv n drv x

/-- No index that a unit's positions may still draw uses a block: every tile of it has been handed out. -/
def State.passedBy (s : State) (me : Region × SlotNo) (c : Chart) (bs : List Nat) (lv u : Nat) (x : Staged) : Bool :=
  let l := c.stageLoop lv
  let end_ := tileAt c bs (fun d => x.coords.getD (d + 1) 0 * l.ext d) + tilesPerBlock c l
  (s.unitClusters me lv u).all fun k => ((s.clusters.get k).pos.bind fun q => s.nextIndex me c q.group).all
    fun v => decide (end_ ≤ v)

/-- A block's slot is free: it is staged in full, every unit of its mask has used it, or never will, and every
issued tile that uses it has streamed it (R200, R204). -/
def State.blockFree (s : State) (me : Region × SlotNo) (c : Chart) (bs : List Nat) (x : Staged) : Bool :=
  let units := (((c.patterns[x.pat]?).map fun p => p.units (x.coords.headD 0)).getD []).filter fun u =>
    !(s.unitClusters me x.level u).isEmpty
  x.left == 0 && units.all fun u =>
    (x.used.contains u || s.passedBy me c bs x.level u x) &&
      (s.unitClusters me x.level u).all fun k => !(s.clusters.get k).needsBlock c bs x.level x.coords

/-- A slot for a block of a level: the one that already holds its coordinates, an empty one, or one that
is free, with the blocks that leave it (R200). -/
def State.pickSlot (s : State) (me : Region × SlotNo) (c : Chart) (bs : List Nat) (lv drv : Nat)
    (coords : List Nat) : Option (Nat × List Staged) :=
  let mine := (s.regions.get (driverRegion lv drv)).fy.staged.filter fun x =>
    x.inst == me && x.level == lv && x.coords.headD 64 == drv
  let slots := (c.stageLoop lv).slots
  match mine.find? (·.coords == drv :: coords) with
  | some x => some (x.slot, [])
  | none =>
    match firstBelow slots (fun n => !mine.any (·.slot == n)) with
    | some n => some (n, [])
    | none =>
      (firstBelow slots fun n => (mine.filter (·.slot == n)).all (s.blockFree me c bs)).map fun n =>
        (n, mine.filter (·.slot == n))

/-- An index issued to a cluster uses the blocks that stand staged for it (R200). -/
def State.useBlocks (s : State) (me : Region × SlotNo) (c : Chart) (bs : List Nat) (k : Fin 64) : State :=
  let y := s.clusters.get k
  let hit := fun (x : Staged) => x.inst == me && decide (x.level < 2) &&
    ((c.patterns[x.pat]?).any fun p => (p.units (x.coords.headD 0)).contains (unitOf x.level k.1)) &&
    y.needsBlock c bs x.level x.coords
  let mark := fun (x : Staged) => if hit x then { x with used := setInsert (unitOf x.level k.1) x.used } else x
  { s with regions := s.regions.map fun z => { z with fy := { z.fy with staged := z.fy.staged.map mark } } }

/-! ## Reading an operand element -/

/-- The reader of a cluster's operands: its own ferry engines (R21, R244). -/
def State.clusterUnit (s : State) (me : Region × SlotNo) (k t : Nat) : Who :=
  { s.unit (fin 7 (k / 8)) with cluster := some k, inst := s.instName me.1 me.2, tile := t }

/-- What a read of operands answered: values, an input stream fault, or a wait (R118, R145). -/
inductive Got (α : Type) where
  | got (x : α)
  | fault (cause : BitVec 3)
  | wait
  deriving DecidableEq, Repr

/-- What follows a read that answered. -/
def gotThen {α β : Type} (x : W × Got α) (f : W → α → W × Got β) : W × Got β :=
  match x.2 with
  | .got a => f x.1 a
  | .fault e => (x.1, .fault e)
  | .wait => (x.1, .wait)

/-- Elements one after another from a source: code by code, an N4 element as its nibble (R43). -/
def W.readCodes (w : W) (who : Who) (f : Fmt) (x : Src) (b1 b2 : Nat) :
    List (Nat × Nat) → W × (List Nat ⊕ BitVec 3)
  | [] => (w, .inl [])
  | (row, col) :: rest =>
    let a := x.at f false row col b1 b2
    let n := (f.width + 7) / 8
    let y := w.read who a n
    if y.2.1 ≠ .ok then
      (y.1, .inr (arrayCause (if inShoal a then 5 else accessCause w.s a n false y.2.1)))
    else
      let v := bytesToNat y.2.2
      let odd := f == .n4 && (if x.swap then row - x.row0 else col - x.col0) % 2 == 1
      let z := y.1.readCodes who f x b1 b2 rest
      (z.1, match z.2 with
        | .inl cs => .inl ((if f = .n4 then (if odd then v / 16 else v % 16) else v) :: cs)
        | .inr e => .inr e)

/-- Elements beyond the chiplet are wanted and no tag is free for them (R118, R248). -/
def State.lacksTag (s : State) (k : Nat) (f : Fmt) (x : Src) (b1 b2 : Nat) (es : List (Nat × Nat)) : Bool :=
  !s.tagRoom (fin 7 (k / 8)) && es.any fun e =>
    match s.locate (x.at f false e.1 e.2 b1 b2) with
    | .stack _ | .away => true
    | _ => false

/-- Elements of argument slot `i` for cluster `k`; the first names the block they stand in. -/
def W.operands (w : W) (me : Region × SlotNo) (c : Chart) (k i t : Nat) (o : List Nat)
    (es : List (Nat × Nat)) : W × Got (List Nat) :=
  let args := (w.s.inst me.1 me.2).args
  let a := boundArg c args i
  match Fmt.ofCode a.fmt with
  | none => (w, .fault 3)
  | some f =>
    match w.s.src me c args k 2 i o with
    | none => (w, match w.s.stageFault me c k i o with
        | some e => .fault e
        | none => .wait)
    | some x =>
      if w.s.lacksTag k f x (o.getD 3 0) (o.getD 4 0) es then (w, .wait)
      else
        let y := w.readCodes (w.s.clusterUnit me k t) f x (o.getD 3 0) (o.getD 4 0) es
        (y.1, match y.2 with
          | .inl cs => .got cs
          | .inr e => .fault e)

/-! ## Sum chains (R122, R146, R212) -/

/-- The position that follows a chain position in its group, in the same quadrant (R121, R122). -/
def nextPosition (c : Chart) (p : Position) : Option Position :=
  (c.members p.group).find? fun q => q.chainPos == p.chainPos + 1 && q.quad == p.quad

/-- The position ahead of a chain position. -/
def prevPosition (c : Chart) (p : Position) : Option Position :=
  (c.members p.group).find? fun q => q.chainPos + 1 == p.chainPos && q.quad == p.quad

/-- The last position of a chain drains (R122). -/
def lastPosition (c : Chart) (p : Position) : Bool := (nextPosition c p).isNone

/-- Row `r` of the running sum of a tile, when all its records have arrived. -/
def ChainBuf.row (b : ChainBuf) (t r : Nat) : Option (List IVal) :=
  let ps := b.rows.filter fun x => x.index == t && x.row == r
  let part := fun j => (ps.find? (·.part == j)).map (·.recs)
  (List.range 8).foldl (fun o j => o.bind fun xs => (part j).map (xs ++ ·)) (some [])

/-- Everything of a tile leaves the inbox. -/
def ChainBuf.forget (b : ChainBuf) (t : Nat) : ChainBuf :=
  { b with rows := b.rows.filter (·.index != t), trailers := b.trailers.filter (·.1 != t) }

/-- A part of a row arrives: it belongs to the oldest tile whose trailer has not come; a tile already
discarded takes nothing (R122, R146). -/
def ClusterSt.takeRow (y : ClusterSt) (row part : Nat) (recs : List IVal) : ClusterSt :=
  match y.chainIn.due with
  | [] => y
  | t :: _ =>
    if y.doneWith t then y
    else { y with chainIn := { y.chainIn with rows := y.chainIn.rows ++ [(⟨t, row, part, recs⟩ : ChainPart)] } }

/-- A trailer arrives (R122, R293). -/
def ClusterSt.takeTrailer (y : ClusterSt) (t : Nat) (flags : BitVec 8) : ClusterSt :=
  let keep := !y.doneWith t
  { y with chainIn := { y.chainIn with
      due := y.chainIn.due.erase t,
      trailers := if keep then y.chainIn.trailers ++ [(t, flags)] else y.chainIn.trailers } }

/-- The flit of a part of a row, or of a trailer (R293). -/
def State.chainFlit (s : State) (q : Position) (row part : Nat) (trailer : Bool) (data : List Byte) : TxFlit :=
  ⟨BitVec.ofNat 64 (place 2 62 2 + place 2 60 2 + place q.chiplet 57 3 + place s.pk.id.toNat 54 3 +
    place q.region 37 3 + place q.cluster 34 3 + place row 27 7 + place part 24 3 + place (bit trailer) 23 1),
    data⟩

/-- Bytes of a trailer flit (R293). -/
def trailerBytes (t : Nat) (flags : BitVec 8) : List Byte :=
  natToBytes 8 (flags.toNat % 8) ++ natToBytes 8 t ++ natToBytes 240 0

/-- The outbox still holds rows for the position that follows: flits to it wait at the port (R122). On this
chiplet rows leave the outbox as they are promoted. -/
def State.outboxHolds (s : State) (q : Position) : Bool :=
  q.chiplet != s.pk.id.toNat && (s.routePort q.chiplet).any fun p => (s.port p).txWait.any fun f =>
    protoKind f.proto == 2 && protoClass f.proto == 2 && field f.proto.toNat 57 3 == q.chiplet &&
      field f.proto.toNat 37 3 == q.region && field f.proto.toNat 34 3 == q.cluster

/-- A row of 128 records sent to a position: into its inbox on this chiplet, whose clock it starts, as eight
flits elsewhere (R122, R212, R293, R377). -/
def State.sendRow (s : State) (q : Position) (row : Nat) (recs : List IVal) : State :=
  (List.range 8).foldl (fun s j =>
    let xs := (recs.drop (16 * j)).take 16
    let k := fin 63 (8 * q.region + q.cluster)
    if q.chiplet = s.pk.id.toNat then (s.onCluster k (·.takeRow row j xs)).wakeCluster k.1
    else match s.routePort q.chiplet with
      | some p => s.sendFlit p (s.chainFlit q row j false (xs.flatMap fun v => natToBytes 16 v.record))
      | none => s) s

/-- A trailer sent to a position. -/
def State.sendTrailer (s : State) (q : Position) (t : Nat) (flags : BitVec 8) : State :=
  let k := fin 63 (8 * q.region + q.cluster)
  if q.chiplet = s.pk.id.toNat then (s.onCluster k (·.takeTrailer t flags)).wakeCluster k.1
  else match s.routePort q.chiplet with
    | some p => s.sendFlit p (s.chainFlit q 0 0 true (trailerBytes t flags))
    | none => s

end Sys2Proof.Machine
end

