-- ==== Sys2Proof/Machine/Array.lean ====
section
/-! DEFINITION. Counter draws and the matrix array: steps, chunks, promotion, drain and aborts (03, 04, 06). -/

namespace Sys2Proof.Machine

/-! ## Draws (R188, R206) -/

/-- A draw from counter `n` of this chiplet: the index, or the done sentinel; it wakes the counter's region (R206,
R379). -/
def State.draw (s0 : State) (n : Nat) : State × Nat :=
  let s := s0.wakeRegion (fin 7 (n / 128))
  let x := (s.regions.get (fin 7 (n / 128))).counters.get (fin 127 (n % 128))
  if x.value.toNat < x.limit.toNat then
    (s.onRegion (fin 7 (n / 128)) fun y =>
      { y with counters := vmod y.counters (fin 127 (n % 128)) fun z => { z with value := z.value + 1 } },
      x.value.toNat)
  else (s, 2 ^ 64 - 1)

/-- A tile that sends its running sum to a position: one with elements in bounds there (R122, R143). -/
def expectsSum (c : Chart) (bs : List Nat) (t : Nat) (q : Position) : Bool :=
  let g := tileGeom c bs t q.quad
  q.chainPos != 0 && g.mv != 0 && g.nv != 0

/-- An index queued at a cluster, whose inbox expects its running sum. -/
def ClusterSt.queueTile (y : ClusterSt) (c : Chart) (bs : List Nat) (t : Nat) : ClusterSt :=
  { y with
    issued := y.issued ++ [t],
    chainIn := if y.pos.any (expectsSum c bs t) then { y.chainIn with due := y.chainIn.due ++ [t] } else y.chainIn }

/-- An index issued to the positions of a group: those of this chiplet queue it and use the blocks that stand
staged for it; the leader's chiplet passes it on (R139, R188, R200). A group with no position here holds
nothing ahead here: its leader's chiplet does. -/
def State.issue (s : State) (me : Region × SlotNo) (c : Chart) (g t : Nat) : State :=
  let bs := (s.inst me.1 me.2).bounds
  let ks := s.groupClusters me g
  let s1 := ks.foldl (fun s k => (s.onCluster k (·.queueTile c bs t)).useBlocks me c bs k) s
  let s2 := if ks.isEmpty then s1 else s1.onGroup me g fun y => { y with ahead := some t }
  if s.leads c g && (c.members g).any (·.chiplet != s.pk.id.toNat) then s2.emit (.toPkg (.issue (s.instName me.1 me.2) g t))
  else s2

/-- A group has positions on this chiplet. -/
def State.groupHere (s : State) (c : Chart) (g : Nat) : Bool := (c.members g).any (·.chiplet == s.pk.id.toNat)

/-- Every group with positions here has drawn the sentinel (R361). -/
def State.groupsDone (s : State) (c : Chart) (i : Inst) : Bool :=
  i.groups.all fun y => y.done || !s.groupHere c y.g

/-- A group that has drawn the sentinel; the last one sends a Running instance to Draining, when no group lies
elsewhere. The leader's chiplet passes the sentinel on (R188, R206, R361). -/
def State.groupEnds (s : State) (me : Region × SlotNo) (c : Chart) (g : Nat) : State :=
  let s1 := (s.onGroup me g fun y => { y with done := true }).onInst me.1 me.2 fun i =>
    if i.st = .running ∧ i.groups.all (·.done) then { i with st := .draining } else i
  if s.leads c g && (c.members g).any (·.chiplet != s.pk.id.toNat) then
    s1.emit (.toPkg (.issue (s.instName me.1 me.2) g (2 ^ 64 - 1)))
  else s1

/-- A draw of the group's leader here: a redo entry, also while a STOP drains the indices drawn, then the counter;
`remote` answers a DRAW of a counter elsewhere. For a group led elsewhere `remote` is the index that its
leader passes (R188, R206, R372; log 38, 142). -/
def execCounterDraw (r : Region) (slot : SlotNo) (grp : Nat) (remote : Option W64) (s : State) :
    Host.Outcome State Fault Refusal :=
  let i := s.inst r slot
  match i.chart, i.groups.find? (·.g == grp) with
  | some c, some y =>
    match c.leader grp with
    | none => .next s
    | some p =>
      let here := p.chiplet == s.pk.id.toNat
      let awake := !here || s.clusterOn (fin 63 (8 * p.region + p.cluster))
      let draws := i.st == .running || i.st == .draining && (!here || !y.redo.isEmpty)
      let take := fun (x : State × Nat) =>
        if tileCount c i.bounds ≤ x.2 then x.1.groupEnds (r, slot) c grp else x.1.issue (r, slot) c grp x.2
      if !draws ∨ i.faulting ≠ 0 ∨ y.done ∨ y.ahead.isSome ∨ !awake ∨ s.alarmed then .next s
      else match (if here then y.redo else []) with
        | t :: rest => .next ((s.onGroup (r, slot) grp fun z => { z with redo := rest }).issue (r, slot) c grp t)
        | [] =>
          if here && p.ctrChiplet == s.pk.id.toNat then .next (take (s.draw p.counter))
          else match remote with
            | some v => .next (take (s, v.toNat))
            | none => .next s
  | _, _ => .next s

/-! ## Taking up a tile (R119, R120, R139, R143) -/

/-- MX_TILE_STATUS of a tile that completed (R137, R148). -/
def mxStatus (longsum subflush : Bool) (nf : Option (Nat × Nat)) : W32 :=
  BitVec.ofNat 32 (place 1 31 1 + place (bit longsum) 29 1 + place (bit nf.isSome) 28 1 +
    place (bit subflush) 27 1 + place (nf.getD (0, 0)).1 16 8 + place (nf.getD (0, 0)).2 8 8)

/-- MX_TILE_STATUS of an aborted tile (R145). -/
def mxAbort (cause : BitVec 3) : W32 := BitVec.ofNat 32 (place 3 30 2 + place cause.toNat 24 3)

/-- The lifetime counts of a tile's final flags (R435). -/
def State.countFlags (s : State) (longsum subflush nonfinite range : Bool) : State :=
  (((s.count 18 (bit longsum)).count 19 (bit subflush)).count 20 (bit nonfinite)).count 21 (bit range)

/-- The group moves the index on from "drawn ahead" as its pass begins at the first position (R188). -/
def State.beginPass (s : State) (me : Region × SlotNo) (g t : Nat) : State :=
  s.onGroup me g fun y =>
    if y.ahead = some t then { y with ahead := none, inPass := some t, wb := y.wb ++ [t] } else y

/-- A group's pass is over at a position that has taken its whole tile. -/
def State.endPass (s : State) (me : Region × SlotNo) (g t : Nat) : State :=
  s.onGroup me g fun y => if y.inPass = some t then { y with inPass := none } else y

/-- An issued tile may be taken up: while the instance faults, only one whose pass another position of the
group has begun (R146, R147, R188). -/
def State.mayTake (s : State) (me : Region × SlotNo) (g t : Nat) : Bool :=
  let i := s.inst me.1 me.2
  i.faulting == 0 || i.groups.any fun y => y.g == g && y.wb.contains t

/-- Rows and columns of cells kept: those in bounds, and one row and one column that stand for all the others.
Every cell out of bounds takes +0 from an edge, so all of one row or column hold the same (R140). -/
def TileGeom.keptRows (g : TileGeom) : Nat := min 128 (g.mv + 1)
def TileGeom.keptCols (g : TileGeom) : Nat := min 128 (g.nv + 1)

/-- Cells of a tile at its start: empty groups and chunks, strict accumulators at their biases, +0 beyond the
bounds (R110, R140, R142). -/
def freshCells (g : TileGeom) (accs : List (BitVec 32)) : List Cell :=
  (List.range (g.keptRows * g.keptCols)).map fun j => ⟨[], IVal.zero, accs.getD (j % g.keptCols) 0⟩

/-- Format of the bias (MX_EPI.BIAS, R148). -/
def biasFmt (e : Nat) : Fmt := if epiBiasSel e = 2 then .f32 else .t16

/-- Origin (M, N, K, B1, B2) of a tile's part at step `k`. -/
def TileGeom.at (g : TileGeom) (k : Nat) : List Nat := [g.row0, g.col0, k, g.b1, g.b2]

/-- The biases of a tile's columns as codes; none without a bias (R62, R142). -/
def W.biases (w : W) (me : Region × SlotNo) (c : Chart) (k t : Nat) (g : TileGeom) : W × Got (List Nat) :=
  if epiBiasSel c.epi = 0 then (w, .got [])
  else w.operands me c k 5 t (g.at (g.k - 1)) ((List.range g.nv).map fun j => (0, g.col0 + j))

/-- A tile whose array part has nothing in bounds completes at once (R143). -/
def State.emptyTile (s : State) (me : Region × SlotNo) (k : Fin 64) (q : Position) (t : Nat) : State :=
  let s1 := (s.beginPass me q.group t).onCluster k fun y =>
    { y with issued := y.issued.drop 1, turn := y.turn + 1, lastIndex := BitVec.ofNat 64 t,
             tileStatus := mxStatus false false none, chainIn := y.chainIn.forget t }
  (s1.endPass me q.group t).settleTiles me q.group

/-- The promotion of a tile of which no step is left: K = 0, or an empty slice of a chain (R100, R120). -/
def State.toPromotion (s : State) (me : Region × SlotNo) (c : Chart) (k : Fin 64) (q : Position) (t : Tile)
    (last : Bool) : State :=
  let p : Promo :=
    { index := t.index, slot := t.slot, geom := t.geom, row := 0, last := last, shadow := t.cells.map (·.c48),
      accs := t.cells.map (·.acc), longsum := longSum (chartMode c) (kPad t.geom.k), subflush := t.subflush }
  let s1 := s.onCluster k fun y =>
    { y with promo := some p,
             bank := if y.bank.isEmpty then List.replicate (t.geom.keptRows * t.geom.keptCols) IVal.zero else y.bank }
  if last then (s1.onCluster k fun y => { y with tile := none }).endPass me q.group t.index else s1

/-- The oldest issued tile put in pass; nothing while it may not be, or its biases are not at hand. -/
def W.takeUp (w : W) (me : Region × SlotNo) (c : Chart) (k : Fin 64) (q : Position) : W :=
  let y := w.s.clusters.get k
  match y.issued with
  | [] => w
  | t :: _ =>
    if !w.s.mayTake me q.group t then w
    else
      let g := tileGeom c (w.s.inst me.1 me.2).bounds t q.quad
      if g.mv = 0 ∨ g.nv = 0 then w.on (·.emptyTile me k q t)
      else
        let steps := posSteps c q g.k
        let x := if chartMode c = .strict then w.biases me c k.1 t g else (w, .got [])
        match x.2 with
        | .wait => x.1
        | .fault e => x.1.on (·.onCluster k fun y => { y with fault := some (t, e) })
        | .got bs =>
          let accs := bs.map fun b => BitVec.ofNat 32 (strictStart (some (biasFmt c.epi, b)))
          let tile : Tile :=
            { index := t, slot := c.turnSlot y.turn, geom := g, kEnd := steps.2, block := steps.1, pair := 0,
              k := steps.1, full := false, subflush := false, cells := freshCells g accs }
          let start := fun (s : State) => (s.beginPass me q.group t).onCluster k fun y =>
            { y with issued := y.issued.drop 1, turn := y.turn + 1, tile := some tile }
          if steps.1 < steps.2 then x.1.on start
          else if y.promo.isSome then x.1
          else x.1.on fun s => (start s).toPromotion me c k q tile true

/-! ## Operands of a step (R58-R66, R86, R89, R115, R116, R140) -/

/-- One element as it enters the array: exact value, block scale, whether a subnormal was flushed. -/
structure Entry where
  v : XVal
  sc : Option Nat
  sub : Bool
  deriving DecidableEq, Repr

/-- The elements that edge `side` (0 A, 1 B) takes at step `k`: only those in bounds; +0 beyond K. -/
def W.edge (w : W) (me : Region × SlotNo) (c : Chart) (mode : Nat) (cl t : Nat) (g : TileGeom) (side k : Nat) :
    W × Got (List Entry) :=
  let n := if side = 0 then g.mv else g.nv
  let lo := if side = 0 then g.row0 else g.col0
  if g.k ≤ k then (w, .got (List.replicate n ⟨.zero, none, false⟩))
  else
    let a := boundArg c (w.s.inst me.1 me.2).args side
    let o := g.at k
    let coord := fun i j => if side = 0 then slotCoord c i a.trans (lo + j) 0 k else slotCoord c i a.trans 0 (lo + j) k
    let idx := List.range n
    let strict := chartMode c == .strict
    let flush := modeFlush c.mode && !strict
    let f := (Fmt.ofCode a.fmt).getD .t8
    let weights := modeExpand c.mode != 0 && modeWside c.mode == (side == 1)
    gotThen (w.operands me c cl side t o (idx.map (coord side))) fun w codes =>
      let vals : W × Got (List (XVal × Bool)) :=
        if weights && modeExpand c.mode == 1 then
          if (boundArg c (w.s.inst me.1 me.2).args 6).present then
            gotThen (w.operands me c cl 6 t o (idx.map fun j => (0, lo + j))) fun w zs =>
              (w, .got ((codes.zip zs).map fun x => (expandZp f x.1 x.2, false)))
          else (w, .got (codes.map fun q => (expandZp f q 0, false)))
        else if weights then
          gotThen (w.operands me c cl 7 t o ((codes.zip idx).map fun x =>
            (tableIndex c.expT (2 ^ c.expG) (lo + x.2), x.1))) fun w es =>
            (w, .got (es.map fun e => epiInput flush .t16 e))
        else (w, .got (codes.map fun q => epiInput flush f q))
      gotThen vals fun w vs =>
        if testBit mode 16 && (if side = 0 then c.bsA else c.bsB) % 8 != 0 && !strict then
          gotThen (w.operands me c cl (8 + side) t o (idx.map (coord (8 + side)))) fun w ss =>
            (w, .got ((vs.zip ss).map fun x => ⟨x.1.1, some x.2, x.1.2⟩))
        else (w, .got (vs.map fun x => ⟨x.1, none, x.2⟩))

/-- The elements that the kept rows or columns take: those in bounds, and the +0 of one beyond (R140). -/
def keptEdge (es : List Entry) : List Entry := if es.length < 128 then es ++ [⟨.zero, none, false⟩] else es

/-- One K step in a cell: a product into its group, a complete group of 32 into the chunk register; in
STRICT mode one fused multiply-add (R88-R92, R110). -/
def Cell.step (md : NumMode) (pr : Nat × Nat) (x : Cell) (a b : Entry) : Cell :=
  if md = .strict then { x with acc := BitVec.ofNat 32 (strictStep x.acc.toNat (f32Of a.v) (f32Of b.v)) }
  else
    let ps := x.prods ++ [modeProduct md pr a.v b.v a.sc b.sc]
    if ps.length = 32 then { x with prods := [], c48 := chunkAdd x.c48 ps } else { x with prods := ps }

/-- A tile after the step whose edges are `as` and `bs`; the chunk is full after 4,096 steps or at the end
of the block (R92, R99, R119). -/
def Tile.take (md : NumMode) (t : Tile) (as bs : List Entry) : Tile :=
  let pr := md.pairs.getD t.pair (1, 1)
  let ab := as.flatMap fun a => bs.map fun b => (a, b)
  let k := t.k + 1
  { t with
    cells := (t.cells.zip ab).map fun x => x.1.step md pr x.2.1 x.2.2,
    k := k, full := (k - t.block) % 4096 == 0 || k == min (t.block + 65536) t.kEnd,
    subflush := t.subflush || as.any (·.sub) || bs.any (·.sub) }

/-- A cluster whose array may act: its instance, chart and position (R144, R377, R423). -/
def State.atWork (s : State) (k : Fin 64) : Option ((Region × SlotNo) × Chart × Position) :=
  let y := s.clusters.get k
  if s.alarmed || !s.clusterOn k || y.fault.isSome then none
  else match y.inst, y.pos with
    | some me, some q => (s.inst me.1 me.2).chart.map fun c => (me, c, q)
    | _, _ => none

/-- Cycles that an array waited (R118, R148). -/
def State.waitedCc (s : State) (k : Fin 64) (n : Nat) : State :=
  s.onCluster k fun y => { y with waitCc := y.waitCc + BitVec.ofNat 64 n }

def execArrayStep (r : Region) (c : Cluster) (waited : Nat) (e : Env) (s : State) :
    Host.Outcome State Fault Refusal :=
  let k := clIdx r c
  match s.atWork k with
  | none => .next s
  | some (me, ch, q) =>
    let w : W := ⟨s, e⟩
    let w1 := if (s.clusters.get k).tile.isNone then w.takeUp me ch k q else w
    match (w1.s.clusters.get k).tile with
    | none => .next w1.s
    | some t =>
      if t.full ∨ (w1.s.clusters.get k).fault.isSome then .next w1.s
      else
        let w2 := w1.on (·.waitedCc k waited)
        let mode := (w2.s.clusters.get k).mode.toNat
        let x := gotThen (w2.edge me ch mode k.1 t.index t.geom 0 t.k) fun w as =>
          gotThen (w.edge me ch mode k.1 t.index t.geom 1 t.k) fun w bs => (w, .got (as, bs))
        match x.2 with
        | .wait => .next x.1.s
        | .fault cause => .next (x.1.s.onCluster k fun y => { y with fault := some (t.index, cause) })
        | .got (as, bs) => .next (x.1.s.onCluster k fun y => { y with tile := some (t.take (chartMode ch) (keptEdge as) (keptEdge bs)) })

/-! ## Chunks (R92, R93, R99, R123) -/

/-- Cycles of a chunk of `n` steps: both operands 8-bit two steps a cycle, F32NATIVE eight cycles a step,
STRICT sixteen (R87, R117, R123). -/
def chunkCc (c : Chart) (n : Nat) : Nat :=
  let wide := fun f => f == 2 || f == 3 || f == 6
  match chartMode c with
  | .f32native => 8 * n
  | .strict => 16 * n
  | .standard =>
    if wide (modeAFmt c.mode) || wide (modeBFmt c.mode) || modeExpand c.mode == 2 then n else n / 2
  | _ => n

/-- The tile after a chunk has left its cells: the next chunk, slice pair or block (R99, R106). -/
def Tile.next (md : NumMode) (t : Tile) : Tile :=
  let cells := t.cells.map fun x => { x with c48 := IVal.zero }
  let e := min (t.block + 65536) t.kEnd
  if t.k < e then { t with cells := cells, full := false }
  else if t.pair + 1 < md.pairs.length then { t with cells := cells, full := false, pair := t.pair + 1, k := t.block }
  else { t with cells := cells, full := false, pair := 0, block := e, k := e }

/-- The chunk just completed is the tile's last. -/
def Tile.lastChunk (md : NumMode) (t : Tile) : Bool := t.k == t.kEnd && t.pair + 1 == md.pairs.length

/-- Steps of the chunk that a full tile has completed. -/
def Tile.chunkSteps (t : Tile) : Nat :=
  let n := (t.k - t.block) % 4096
  if n = 0 then 4096 else n

def execChunkEnd (r : Region) (c : Cluster) (waited : Nat) (s : State) : Host.Outcome State Fault Refusal :=
  let k := clIdx r c
  match s.atWork k, (s.clusters.get k).tile with
  | some (me, ch, q), some t =>
    let md := chartMode ch
    let last := t.lastChunk md
    if !t.full || (s.clusters.get k).promo.isSome then .next s
    else
      let s1 := (s.waitedCc k waited).onCluster k fun y =>
        { y with passCc := y.passCc + BitVec.ofNat 64 (chunkCc ch t.chunkSteps) }
      let s2 := if last || md != .strict then s1.toPromotion me ch k q t last else s1
      .next (if last then s2 else s2.onCluster k fun y => { y with tile := some (t.next md) })
  | _, _ => .next s

/-! ## Promotion, chain and epilogue (R94, R101, R122, R124, R127-R138) -/

/-- Activation of a chart's epilogue (R128, R129). -/
def State.actOf (s : State) (c : Chart) : Act :=
  match epiAct c.epi with
  | 1 => .relu
  | 2 => .table (imgTable s.site.image (epiActTable c.epi))
  | _ => .none

/-- Scales and biases of row `r` as the epilogue takes them, one entry for each column (R62, R142). -/
def W.epiInputs (w : W) (me : Region × SlotNo) (c : Chart) (k : Nat) (p : Promo) : W × Got (List EpiIn) :=
  let g := p.geom
  let o := g.at (g.k - 1)
  let strict := chartMode c == .strict
  let rs : W × Got (List Nat) :=
    if epiRscale c.epi then w.operands me c k 3 p.index o [(0, g.row0 + p.row)] else (w, .got [])
  gotThen rs fun w rs =>
    let cs : W × Got (List Nat) :=
      if epiCscale c.epi then w.operands me c k 4 p.index o ((List.range g.nv).map fun j => (0, g.col0 + j))
      else (w, .got [])
    gotThen cs fun w cs =>
      let bs : W × Got (List Nat) := if strict then (w, .got []) else w.biases me c k p.index g
      gotThen bs fun w bs =>
        (w, .got ((List.range g.nv).map fun j =>
          ⟨rs.head?, cs[j]?, (bs[j]?).map fun b => (biasFmt c.epi, b)⟩))

/-- The promotion stands at a row whose totals the bank keeps apart. -/
def Promo.keptRow (p : Promo) : Bool := decide (p.row ≤ p.geom.mv)

/-- The position's own totals of the promotion's row, one for each kept column: the chunk folded into the bank.
Rows beyond the bounds share the row kept for them (R94, R140). -/
def Promo.own (p : Promo) (bank : List IVal) : List IVal :=
  let w := p.geom.keptCols
  (List.range w).map fun j =>
    let n := min p.row p.geom.mv * w + j
    let b := bank.getD n IVal.zero
    if p.keptRow then totalAdd b (p.shadow.getD n IVal.zero) else b

/-- The 128 totals of a row, with the running sum folded in where one arrives (R101, R122, R140). -/
def Promo.totals (p : Promo) (own : List IVal) (run : Option (List IVal)) : List IVal :=
  (List.range 128).map fun j =>
    let t := own.getD (min j p.geom.nv) IVal.zero
    match run with
    | some xs => chainFold (xs.getD j IVal.zero) t
    | none => t

/-- Row `r` of a bank replaced. -/
def putBankRow (bank : List IVal) (nv r : Nat) (xs : List IVal) : List IVal :=
  bank.take (r * nv) ++ xs ++ bank.drop ((r + 1) * nv)

/-- Tile queue entries occupied (R20, R154). -/
def queueUse (q : List QEntry) : Nat := (q.map fun e => if e.fmt = .f32p then 2 else 1).foldl (· + ·) 0

/-- Entries occupied: a tile leaves its entries when its first pass has taken its last beat (R155). -/
def ClusterSt.queueUsed (y : ClusterSt) : Nat :=
  queueUse (y.queue ++ (y.vc.toList.filter fun t => t.pass == 0 && t.started).map (·.e))

/-- Format of the epilogue's output. -/
def outFmtOf (c : Chart) : Fmt := (Fmt.ofCode (epiOutFmt c.epi)).getD .t16

/-- The drain of a tile may begin: no drain under way, and room in the tile queue or a released output
slot (R20, R124, R201). -/
def ClusterSt.drainRoom (y : ClusterSt) (c : Chart) (p : Promo) : Bool :=
  y.drain.isNone &&
    if epiDest c.epi then decide (y.queueUsed + (if outFmtOf c = .f32p then 2 else 1) ≤ 4)
    else !y.outs.any fun o => o.arg == 2 && o.slot == p.slot

/-- Counts added bin by bin (R135). -/
def addHist (h : List Nat) (bins : List Nat) : List Nat :=
  bins.foldl (fun h b => modifyAt h b (· + 1)) h

/-- The row's elements enter the drain and, with DEST = 0, the shoal buffer (R127, R134, R135, R141). -/
def State.drainRow (s : State) (c : Chart) (k : Fin 64) (q : Position) (p : Promo) (es : List EpiOut) : State :=
  let f := outFmtOf c
  let d := ((s.clusters.get k).drain).getD
    { index := p.index, slot := p.slot, geom := p.geom, rows := [], hist := List.replicate 64 0, nf := none,
      longsum := p.longsum, subflush := p.subflush }
  let nf := (es.findIdx? (·.nonfinite)).map fun j =>
    (p.row + (if testBit q.quad 1 then 128 else 0), j + (if testBit q.quad 0 then 128 else 0))
  let d1 : Drain :=
    { d with rows := d.rows ++ [es.map (·.code)], hist := addHist d.hist (es.map (·.bin)),
             nf := d.nf.orElse fun _ => nf, subflush := d.subflush || es.any (·.subflush) }
  let s1 := s.onCluster k fun y => { y with drain := some d1 }
  if epiDest c.epi || es.isEmpty then s1
  else s1.shoalPut k.1 (c.area c.l1addr.epiOff p.slot + p.row * rowBytes f 128) (packElems f (es.map (·.code)))

/-- The promotion moves to its next row; after row 127 the units are free and, after the last chunk, the
bank is empty (R124). -/
def State.nextRow (s : State) (k : Fin 64) (p : Promo) (bank : List IVal) : State :=
  s.onCluster k fun y =>
    if p.row < 127 then { y with promo := some { p with row := p.row + 1 }, bank := bank }
    else { y with promo := none, bank := if p.last then [] else bank }

/-- FLAGS of a trailer: LONGSUM and SUBFLUSH (R122, R293). -/
def Promo.flags (p : Promo) : BitVec 8 := BitVec.ofNat 8 (bit p.longsum + 2 * bit p.subflush)

/-- A row of the last chunk at a position that is not its chain's last: sent on, the trailer after row 127
(R122). -/
def State.chainRow (s : State) (k : Fin 64) (next : Position) (p : Promo) (tot : List IVal) : State :=
  let s1 := s.sendRow next p.row ((List.range 128).map fun j => tot.getD j IVal.zero)
  if p.row < 127 then s1
  else (s1.sendTrailer next p.index p.flags).onCluster k fun y =>
    { y with lastIndex := BitVec.ofNat 64 p.index, tileStatus := mxStatus p.longsum p.subflush none }

/-- The running sum that a row needs: none for the first position, a wait while it has not arrived; after
row 127 its trailer's flags join the tile's (R101, R122). -/
def Promo.running (p : Promo) (b : ChainBuf) (chained : Bool) : Got (Option (List IVal) × Promo) :=
  if !p.last || !chained then .got (none, p)
  else match b.row p.index p.row, b.trailers.find? (·.1 == p.index) with
    | none, _ => .wait
    | some xs, tr =>
      if p.row < 127 then .got (some xs, p)
      else match tr with
        | none => .wait
        | some x => .got (some xs, { p with longsum := p.longsum || testBit x.2.toNat 0,
                                            subflush := p.subflush || testBit x.2.toNat 1 })

/-- The flags of a trailer that came after the drain had begun join the drain. -/
def State.mergeFlags (s : State) (k : Fin 64) (p : Promo) : State :=
  s.onCluster k fun y => { y with drain := y.drain.map fun d =>
    if d.index = p.index then { d with longsum := d.longsum || p.longsum, subflush := d.subflush || p.subflush }
    else d }

def execPromotionRow (r : Region) (c : Cluster) (e : Env) (s : State) : Host.Outcome State Fault Refusal :=
  let k := clIdx r c
  match s.atWork k, (s.clusters.get k).promo with
  | some (me, ch, q), some p0 =>
    let y := s.clusters.get k
    match p0.running y.chainIn (q.chainPos != 0) with
    | .wait | .fault _ => .next s
    | .got (run, p) =>
      let inb := decide (p.row < p.geom.mv)
      let sums := chartMode ch != .strict
      let own := if sums then p.own y.bank else []
      let tot := if sums then p.totals own run else []
      let bank := if sums && p.keptRow then putBankRow y.bank p.geom.keptCols p.row own else y.bank
      let free := fun (s : State) => if p.last && p.row == 127 then
          s.onCluster k fun y => { y with chainIn := y.chainIn.forget p.index } else s
      if !p.last then .next (s.nextRow k p bank)
      else match nextPosition ch q with
        | some next =>
          if p.row = 0 && s.outboxHolds next then .next s
          else .next (free ((s.chainRow k next p tot).nextRow k p bank))
        | none =>
          if p.row = 0 && !y.drainRoom ch p then .next s
          else if !inb then .next (free (((s.drainRow ch k q p []).mergeFlags k p).nextRow k p bank))
          else
            let x := (⟨s, e⟩ : W).epiInputs me ch k.1 p
            match x.2 with
            | .wait => .next x.1.s
            | .fault cause => .next (x.1.s.onCluster k fun y => { y with fault := some (p.index, cause) })
            | .got ins =>
              let strict := chartMode ch == .strict
              let cfg : EpiCfg := ⟨strict, modeFlush ch.mode, s.actOf ch, outFmtOf ch⟩
              let es := ins.zipIdx.map fun i =>
                if strict then epiElementStrict cfg i.1 (p.accs.getD (p.row * p.geom.keptCols + i.2) 0).toNat
                else epiElement cfg i.1 (tot.getD i.2 IVal.zero)
              .next (free (((x.1.s.drainRow ch k q p es).mergeFlags k p).nextRow k p bank))
  | _, _ => .next s

/-! ## End of a drain (R124, R137, R155, R209) -/

/-- A write-back pattern copies the output of an argument slot (R209). -/
def Chart.writesBack (c : Chart) (arg : Nat) : Bool := (c.patternsAt 3).any (·.arg == arg)

/-- FLAGS of a tile at their places in a record (R246). -/
def recFlags (longsum subflush nonfinite range : Bool) : BitVec 8 :=
  BitVec.ofNat 8 (bit nonfinite + 2 * bit subflush + 4 * bit range + 8 * bit longsum)

/-- A drained tile ends in an output slot or in the tile queue (R134, R155, R209). -/
def ClusterSt.deliver (y : ClusterSt) (c : Chart) (d : Drain) : ClusterSt :=
  let f := outFmtOf c
  if epiDest c.epi then
    let e : QEntry :=
      { index := d.index, slot := d.slot, geom := d.geom, fmt := f, rows := d.rows, longsum := d.longsum,
        subflush := d.subflush, nonfinite := d.nf.isSome, nf := d.nf, aborted := false, hist := d.hist }
    { y with queue := y.queue ++ [e] }
  else if c.writesBack 2 then
    let o : OutSlot :=
      { arg := 2, slot := d.slot, index := d.index, geom := d.geom, fmt := f, poisoned := false,
        hist := if epiHist c.epi then d.hist else [], flags := recFlags d.longsum d.subflush d.nf.isSome false,
        nf := d.nf }
    { y with outs := y.outs ++ [o] }
  else y

def execDrainComplete (r : Region) (c : Cluster) (s : State) : Host.Outcome State Fault Refusal :=
  let k := clIdx r c
  match s.atWork k, (s.clusters.get k).drain with
  | some (me, ch, q), some d =>
    if d.rows.length < 128 then .next s
    else
      let s1 := s.onCluster k fun y =>
        ({ y with drain := none, lastIndex := BitVec.ofNat 64 d.index,
                  tileStatus := mxStatus d.longsum d.subflush d.nf } : ClusterSt).deliver ch d
      let s2 := if epiDest ch.epi then s1 else s1.countFlags d.longsum d.subflush d.nf.isSome false
      .next (s2.settleTiles me q.group)
  | _, _ => .next s

/-! ## Aborts (R144-R147) -/

/-- A cluster discards its part of a tile; a part in the tile queue still runs through the chain, but is
not written back (R145, R146). -/
def ClusterSt.discard (y : ClusterSt) (t : Nat) (cause : BitVec 3) : ClusterSt :=
  let mine := y.tile.any (·.index == t) || y.promo.any (·.index == t)
  { y with
    tile := y.tile.filter (·.index != t), promo := y.promo.filter (·.index != t),
    drain := y.drain.filter (·.index != t), issued := y.issued.erase t, chainIn := y.chainIn.forget t,
    bank := if mine && !y.promo.any (·.index != t) then [] else y.bank,
    queue := y.queue.map fun e => if e.index = t then { e with aborted := true } else e,
    vc := y.vc.map fun v => if v.e.index = t then { v with e := { v.e with aborted := true } } else v,
    outs := y.outs.filter (·.index != t), fault := y.fault.filter (·.1 != t),
    lastIndex := BitVec.ofNat 64 t, tileStatus := mxAbort cause }

/-- A cluster's part of a tile discarded, unless it has none; the last position's ABORT is counted (R435). -/
def State.discardAt (s : State) (c : Chart) (k : Fin 64) (t : Nat) (cause : BitVec 3) : State :=
  let y := s.clusters.get k
  if y.doneWith t then s
  else
    let s1 := s.onCluster k (·.discard t cause)
    if y.pos.any (lastPosition c) then s1.count 22 1 else s1

/-- The positions to which a position sends an abort: from an array of a multi-array group that met the fault,
every other one, and from one that only received it none; along a chain the next ones, up to the first on
another chiplet, which forwards it (R146). -/
def abortReach (c : Chart) (chip : Nat) (q : Position) (met : Bool) : List Position :=
  if shapeMulti (modeShape c.mode) then (if met then (c.members q.group).filter (· != q) else [])
  else
    let later := (List.range 8).filterMap fun j =>
      (c.members q.group).find? fun p => p.quad == q.quad && p.chainPos == q.chainPos + 1 + j
    later.takeWhile (·.chiplet == chip) ++ (later.dropWhile (·.chiplet == chip)).take 1

/-- An abort sent to a position: at once on this chiplet, as a trailer elsewhere (R146, R293). -/
def State.abortAt (s : State) (c : Chart) (t : Nat) (p : Position) : State :=
  if p.chiplet = s.pk.id.toNat then
    let k := fin 63 (8 * p.region + p.cluster)
    (s.discardAt c k t 5).onCluster k fun y =>
      { y with chainIn := { y.chainIn.forget t with due := y.chainIn.due.erase t } }
  else s.sendTrailer p t 4

/-- A tile aborted at cluster `k`: record, discard here and wherever the abort reaches, the redo list and
the instance (R145-R147, R369, R371). -/
def W.abortTile (w : W) (me : Region × SlotNo) (c : Chart) (k : Fin 64) (q : Position) (t : Nat)
    (cause : BitVec 3) : W :=
  let w1 := if cause = 5 then w else
    w.fault (fin 7 q.region)
      { source := 1, cause := cause.toNat, region := q.region, cluster := q.cluster,
        inst := w.s.instName me.1 me.2, tile := t, detail := q.chainPos }
  w1.on fun s =>
    let s1 := s.discardAt c k t cause
    let s2 := (abortReach c s.pk.id.toNat q (cause != 5)).foldl (fun s p => s.abortAt c t p) s1
    let s3 := (s2.loseTile me q.group t).onGroup me q.group fun y =>
      { y with ahead := y.ahead.filter (· != t), inPass := y.inPass.filter (· != t) }
    let s4 := s3.onInst me.1 me.2 fun i =>
      { i with firstTile := some (match i.firstTile with
          | some x => min x t
          | none => t) }
    (s4.faultInst me.1 me.2 4).settleTiles me q.group

/-- Staging of a block that a tile issued to cluster `k` needs has ended in error (R145, R200): its CAUSE. -/
def State.issuedFault (s : State) (k : Fin 64) (me : Region × SlotNo) (c : Chart) (t : Nat) : Option (BitVec 3) :=
  let y := { s.clusters.get k with issued := [t], tile := none, promo := none }
  let bs := (s.inst me.1 me.2).bounds
  let hit := fun (lv : Nat) (x : Staged) =>
    x.inst == me && x.level == lv && x.failed != 0 && y.needsBlock c bs lv x.coords &&
      (c.patterns[x.pat]?).any fun p => p.driver k.1 == x.coords.headD 64
  (s.regions.toList.flatMap (·.fy.staged)).findSome? fun x =>
    if hit 0 x || hit 1 x then some x.failed else none

/-- The tile that an input stream fault has reached at a cluster: one that its reads met, one whose L1
fill ended in error, or one issued whose staging did, even before its pass (R145). -/
def State.faultDue (s : State) (k : Fin 64) : Option (Nat × BitVec 3) :=
  let y := s.clusters.get k
  match y.fault with
  | some x => some x
  | none =>
    let fill := (s.regions.get (clRegion k)).fy.staged.find? fun x =>
      x.level == 2 && x.failed != 0 && x.coords.headD 64 == k.1 && !y.doneWith ((x.coords.drop 1).headD 0)
    match fill, y.inst with
    | some x, _ => some ((x.coords.drop 1).headD 0, x.failed)
    | none, some me => (s.inst me.1 me.2).chart.bind fun c =>
        y.issued.findSome? fun t => (s.issuedFault k me c t).map fun e => (t, e)
    | none, none => none

def execTileAbort (r : Region) (c : Cluster) (e : Env) (s : State) : Host.Outcome State Fault Refusal :=
  let k := clIdx r c
  let y := s.clusters.get k
  match y.inst, y.pos, s.faultDue k with
  | some me, some q, some (t, cause) =>
    match (s.inst me.1 me.2).chart with
    | none => .next s
    | some ch =>
      if s.alarmed ∨ !s.clusterOn k then .next s
      else .next ((⟨s, e⟩ : W).abortTile me ch k q t cause).s
  | _, _, _ => .next s

end Sys2Proof.Machine
end

