-- ==== Sys2Proof/Machine/Chain.lean ====
section
/-! DEFINITION. The vector chain: passes over a tile of the queue, spill, outputs and status (05). -/

namespace Sys2Proof.Machine

/-- A cluster whose chain may act: instance, chart, position and program (R182, R377, R423). -/
def State.chainAtWork (s : State) (k : Fin 64) : Option ((Region × SlotNo) × Chart × Position × VProg) :=
  let y := s.clusters.get k
  if s.alarmed || !s.clusterOn k then none
  else match y.inst, y.pos with
    | some me, some q => (s.inst me.1 me.2).chart.bind fun c => c.vprog.map fun v => (me, c, q, v)
    | _, _ => none

/-! ## Starting a pass (R152, R155, R158, R162, R163) -/

/-- Argument slots that a program reads for each tile (R152, R158, R190). -/
def VProg.inputs (v : VProg) : List Nat :=
  (if v.auxEn then [11] else []) ++ (if v.sideEn then [12] else []) ++ (if v.constSrc ≠ 0 then [13] else [])

/-- The per-tile inputs stand in the shoal buffer: every L1 fill of them is done (R163, R201). -/
def State.inputsIn (s : State) (me : Region × SlotNo) (c : Chart) (v : VProg) (k t : Nat) : Bool :=
  v.inputs.all fun i => match c.patternFor 2 i k with
    | none => true
    | some (p, n) => (s.stagedBlock me 2 n (p.driver k) [t]).isSome

/-- The output slots of a tile have been released (R163, R201). -/
def ClusterSt.outsFree (y : ClusterSt) (slot : Nat) : Bool := !y.outs.any (·.slot == slot)

/-- Beat `r` of a tile queue entry: its elements from lane 0, and the second entry of an F32P tile (R153,
R154). -/
def QEntry.beats (e : QEntry) (r : Nat) : Beat × Beat :=
  let row := e.rows.getD r []
  if e.fmt = .f32p then (beatOf 64 (row.take 64), beatOf 64 (row.drop 64)) else (beatOf e.fmt.width row, 0)

/-- Beats read from the shoal buffer; true when a word was uncorrectable (R231). -/
def W.readBeats (w : W) (k : Fin 64) : List Nat → W × Bool × List Beat
  | [] => (w, false, [])
  | off :: offs =>
    let x := w.shoalRead k off 512
    let y := x.1.readBeats k offs
    (y.1, !x.2.1 || y.2.1, BitVec.ofNat 4096 (bytesToNat x.2.2) :: y.2.2)

/-- Constant registers of a tile (R152). -/
def W.constants (w : W) (c : Chart) (v : VProg) (k : Fin 64) (slot : Nat) : W × Bool × List Beat :=
  let base := c.area c.l1addr.constOff slot
  (List.range 4).foldl (fun (x : W × Bool × List Beat) i =>
    if testBit v.constSrc i then
      let y := x.1.readBeats k [base + 512 * i]
      (y.1, x.2.1 || y.2.1, x.2.2 ++ y.2.2)
    else (x.1, x.2.1, x.2.2 ++ [((w.s.clusters.get k).consts).getD i 0])) (w, false, [])

/-- Words of the side vector (R151, R152). -/
def W.sideWords (w : W) (c : Chart) (v : VProg) (k : Fin 64) (slot : Nat) : W × Bool × List Nat :=
  if v.sideEn then
    let x := w.shoalRead k (c.area c.l1addr.sideOff slot) 512
    (x.1, !x.2.1, unpackElems .u32 128 x.2.2)
  else (w, false, List.replicate 128 0)

/-- Spill area of a pass: two buffers of 128 KiB in turn; in each, row r holds the first carried register
at 1,024r and the second at 1,024r + 512 (R159; log 22). -/
def spillAt (v : VProg) (pass row n : Nat) : Nat := v.spillSlot * 0x40000 + pass % 2 * 0x20000 + 1024 * row + 512 * n

/-- Registers that the CARRY byte of a pass names, with their places in the spill rows (R157). -/
def carried (b : Nat) : List (Nat × Nat) :=
  (if testBit b 3 then [(field b 0 3, 0)] else []) ++ (if testBit b 7 then [(field b 4 3, 1)] else [])

/-- The register set at the start of a pass, for every beat (R158, R159). -/
def W.loadRegs (w : W) (c : Chart) (v : VProg) (k : Fin 64) (e : QEntry) (pass : Nat) : W × Bool × List (List Beat) :=
  let zero : List Beat := List.replicate 8 0
  (List.range 128).foldl (fun (x : W × Bool × List (List Beat)) r =>
    if pass = 0 then
      let b := e.beats r
      let y := if v.auxEn then x.1.readBeats k [c.area c.l1addr.auxOff e.slot + 512 * r] else (x.1, false, [0])
      (y.1, x.2.1 || y.2.1, x.2.2 ++ [((zero.set 0 b.1).set 1 b.2).set 2 (y.2.2.headD 0)])
    else
      let cs := carried (v.carry.getD (pass - 1) 0)
      let y := x.1.readBeats k (cs.map fun z => spillAt v (pass - 1) r z.2)
      (y.1, x.2.1 || y.2.1,
        x.2.2 ++ [(cs.zip y.2.2).foldl (fun regs z => regs.set z.1.1 z.2) zero])) (w, false, [])

/-- VL of a tile (R169). -/
def VProg.vl (v : VProg) (g : TileGeom) : Nat := if v.vlSrc then v.vlConst else g.nv

/-- A pass begun on a tile: its inputs are read and its stages computed (R150-R152, R158, R162, R178). -/
def W.startPass (w : W) (c : Chart) (v : VProg) (k : Fin 64) (t : VcTile) : W :=
  let g := t.e.geom
  let cs := w.constants c v k t.e.slot
  let sd := cs.1.sideWords c v k t.e.slot
  let rg := sd.1.loadRegs c v k t.e t.pass
  let ctx := fun r => (⟨cs.2.2, sd.2.2.getD r 0, g.nv, v.vl g, decide (r < g.mv), v.strict, modeFlush c.mode⟩ : BeatCtx)
  let os := rg.2.2.zipIdx.map fun x => passBeat (ctx x.2) (v.passes.getD t.pass []) x.1
  let new := os.any (·.long.isSome)
  let t1 : VcTile :=
    { t with
      started := true, beats := os.map (·.regs), range := t.range || os.any (·.range),
      sub := t.sub || os.any (·.subflush), shoalBad := t.shoalBad || cs.2.1 || sd.2.1 || rg.2.1,
      long := if new then os.map (·.long) else t.long, longPass := if new then t.pass else t.longPass }
  rg.1.on (·.onCluster k fun y => { y with vc := some t1 })

/-- The next tile of the chain may start its first pass: it is in the queue, its inputs and its output slot are
there (R155, R163). -/
def State.nextTile (s : State) (me : Region × SlotNo) (c : Chart) (v : VProg) (k : Fin 64) :
    Option (QEntry × List QEntry) :=
  let y := s.clusters.get k
  match y.queue with
  | [] => none
  | q :: rest => if s.inputsIn me c v k.1 q.index && y.outsFree q.slot then some (q, rest) else none

def execVcPassStart (r : Region) (c : Cluster) (waited : Nat) (e : Env) (s : State) :
    Host.Outcome State Fault Refusal :=
  let k := clIdx r c
  match s.chainAtWork k with
  | none => .next s
  | some (me, ch, _, v) =>
    let y := s.clusters.get k
    let go := fun (s : State) (t : VcTile) =>
      ((⟨s.onCluster k fun z => { z with vcWait := z.vcWait + BitVec.ofNat 64 waited }, e⟩ : W).startPass ch v k t).s
    match y.vc, s.nextTile me ch v k with
    | some t, _ => if t.started then .next s else .next (go s t)
    | none, none => .next s
    | none, some (q, rest) =>
      .next (go (s.onCluster k fun z => { z with queue := rest })
        { e := q, pass := 0, started := false, beats := [], long := [], longPass := 0, range := false,
          sub := false, shoalBad := false })

/-! ## Ending a pass (R159, R160, R178-R181) -/

/-- The registers after a pass, with the result of a division or root that ends with it (R178). Until then DST
keeps its old value, which is what the spill area holds of it; the operation's own state stands in `long`
(DESIGN CHOICE, log 128). -/
def VcTile.finish (t : VcTile) : List (List Beat) :=
  if t.longPass + 2 = t.pass then
    t.beats.zipIdx.map fun x => match t.long.getD x.2 none with
      | some l => x.1.set l.dst l.result
      | none => x.1
  else t.beats

/-- Carried registers written to the spill area (R159). -/
def State.spill (s : State) (v : VProg) (k : Fin 64) (pass : Nat) (beats : List (List Beat)) : State :=
  beats.zipIdx.foldl (fun s x =>
    (carried (v.carry.getD pass 0)).foldl (fun s z =>
      s.shoalPut k.1 (spillAt v pass x.2 z.2) (natToBytes 512 (x.1.getD z.1 0).toNat)) s) s

/-- One output of a program: register, format, offset of its area, first column that it stands for. -/
structure VOut where
  reg : Nat
  fmt : Fmt
  off : Nat
  col0 : Nat
  deriving DecidableEq, Repr

/-- The two outputs form an F32P pair (R160). -/
def VProg.pair (v : VProg) : Bool := v.out0En && v.out0Fmt == 4

/-- The outputs that a program writes, in order (R160). -/
def VProg.outs (v : VProg) (c : Chart) : List VOut :=
  let f := fun n => (Fmt.ofCode n).getD .t16
  (if v.out0En then [⟨v.out0Reg, f v.out0Fmt, c.l1addr.out0Off, 0⟩] else []) ++
    (if v.out1En then [⟨v.out1Reg, f v.out1Fmt, c.l1addr.out1Off, if v.pair then 64 else 0⟩] else [])

/-- Elements of a row of an output area: 128, or 64 in F32P (R160). -/
def outElems (f : Fmt) : Nat := if f = .f32p then 64 else 128

/-- In-bounds elements of one output in a row (R160). -/
def VOut.codes (o : VOut) (nv : Nat) (regs : List Beat) : List Nat :=
  (List.range (min (outElems o.fmt) (nv - o.col0))).map fun j => beatElem (regs.getD o.reg 0) o.fmt.width j

/-- Rows below M_v of every output written to the shoal buffer (R160). -/
def State.putOutputs (s : State) (c : Chart) (v : VProg) (k : Fin 64) (e : QEntry) (beats : List (List Beat)) : State :=
  (beats.take e.geom.mv).zipIdx.foldl (fun s x =>
    (v.outs c).foldl (fun s o =>
      let cs := o.codes e.geom.nv x.1
      if cs.isEmpty then s
      else s.shoalPut k.1 (c.area o.off e.slot + x.2 * rowBytes o.fmt (outElems o.fmt)) (packElems o.fmt cs)) s) s

/-- The first non-finite element written, in the order of R181, with the offsets of QUAD. -/
def VcTile.chainNf (t : VcTile) (c : Chart) (v : VProg) (q : Position) (beats : List (List Beat)) :
    Option (Nat × Nat) :=
  ((beats.take t.e.geom.mv).zipIdx.findSome? fun x =>
    (v.outs c).findSome? fun o =>
      ((o.codes t.e.geom.nv x.1).findIdx? o.fmt.isNonfinite).map fun j => (x.2, o.col0 + j)).map fun z =>
    (z.1 + (if testBit q.quad 1 then 128 else 0), z.2 + (if testBit q.quad 0 then 128 else 0))

/-- VC_TILE_STATUS (R183). -/
def vcStatusOf (longsum sub range src : Bool) (nf : Option (Nat × Nat)) : W32 :=
  BitVec.ofNat 32 (place 1 31 1 + place (bit longsum) 30 1 + place (bit nf.isSome) 29 1 + place (bit sub) 28 1 +
    place (bit range) 27 1 + place (bit src) 26 1 + place (nf.getD (0, 0)).1 16 8 + place (nf.getD (0, 0)).2 8 8)

/-- Output slots that a completed tile fills: those that a write-back pattern copies; the histogram goes
with the first (R136, R201, R209). -/
def VcTile.slots (t : VcTile) (c : Chart) (v : VProg) (flags : BitVec 8) (nf : Option (Nat × Nat)) : List OutSlot :=
  let hist := if epiHist c.epi then t.e.hist else []
  let mk := fun (arg : Nat) (f : Fmt) (h : List Nat) => (
    { arg := arg, slot := t.e.slot, index := t.e.index, geom := t.e.geom, fmt := f, poisoned := t.shoalBad,
      hist := h, flags := flags, nf := nf } : OutSlot)
  let f := fun n => (Fmt.ofCode n).getD .t16
  let one := v.out0En && c.writesBack 2
  let two := v.out1En && !v.pair && c.writesBack 10
  if t.e.aborted then []
  else (if one then [mk 2 (f v.out0Fmt) hist] else []) ++ (if two then [mk 10 (f v.out1Fmt) (if one then [] else hist)] else [])

/-- A cluster's array and chain have nothing left to do for a tile: its inputs are used (R201, R203). -/
def ClusterSt.doneIn (y : ClusterSt) (t : Nat) : Bool :=
  y.arrayDone t && !y.queue.any (·.index == t) && !y.vc.any (·.e.index == t)

/-- The last pass of a tile ends: outputs, flags, status, output slots (R160, R163, R179-R181). -/
def State.endTile (s : State) (me : Region × SlotNo) (c : Chart) (v : VProg) (k : Fin 64) (q : Position)
    (t : VcTile) (beats : List (List Beat)) : State :=
  let own := t.chainNf c v q beats
  let nf := if t.e.nonfinite then t.e.nf else own
  let sub := t.sub || t.e.subflush
  let any := t.e.nonfinite || own.isSome
  let flags := recFlags t.e.longsum sub any t.range
  let s1 := (s.putOutputs c v k t.e beats).onCluster k fun y =>
    { y with
      vc := none, vcLast := BitVec.ofNat 64 t.e.index,
      vcStatus := vcStatusOf t.e.longsum sub t.range (!t.e.nonfinite && own.isSome) nf,
      outs := y.outs ++ t.slots c v flags nf }
  let done := fun (x : Staged) => x.inst == me && x.level == 2 && x.coords.drop 1 == [t.e.index] &&
    (((c.patterns[x.pat]?).map fun p => p.units (x.coords.headD 0)).getD []).all fun u =>
      (s1.clusters.get (fin 63 u)).doneIn t.e.index
  let s2 := s1.onFerry (clRegion k) fun y => { y with staged := y.staged.filter fun x => !done x }
  (s2.countFlags t.e.longsum sub any t.range).settleTiles me q.group

def execVcPassEnd (r : Region) (c : Cluster) (cc : Nat) (s : State) : Host.Outcome State Fault Refusal :=
  let k := clIdx r c
  match s.chainAtWork k, (s.clusters.get k).vc with
  | some (me, ch, q, v), some t =>
    if !t.started then .next s
    else
      let beats := t.finish
      let s1 := s.onCluster k fun y =>
        { y with vcPasses := y.vcPasses + 1, vcBusy := y.vcBusy + BitVec.ofNat 64 cc }
      if t.pass + 1 < v.npass then
        .next ((s1.spill v k t.pass beats).onCluster k fun y =>
          { y with vc := some { t with started := false, pass := t.pass + 1, beats := [] } })
      else .next (s1.endTile me ch v k q t beats)
  | _, _ => .next s

end Sys2Proof.Machine
end

