-- ==== Sys2Proof/Machine/Ferry.lean ====
section
/-! DEFINITION. Ferries, staging, write-back and scrubbing: the commands of 07_lagoon_and_ferries and
06_charts_and_tiling. -/

namespace Sys2Proof.Machine

/-! ## Table contexts (R239, R245, R248) -/

/-- A write of FY_START (R239, R379). -/
def execFyStart (r : Region) (v : W32) (e : Env) (s : State) : Host.Outcome State Fault Refusal :=
  .next ((⟨s.wakeRegion r, e⟩ : W).startCtx r (field v.toNat 0 18)).s

/-- The ferries of region `r` may move data (R250, R376, R392, R423). -/
def State.ferriesRun (s : State) (r : Region) : Bool :=
  !s.alarmed && s.regionOn r && !s.power.forced && !s.power.haltedRegions.getLsbD r.1

/-- Contexts on one engine: region ferry `e`, or engine `e` of a cluster (R237). -/
def RegFerry.onEngine (y : RegFerry) (cluster : Option Nat) (e : Nat) : List LoadedCtx :=
  y.loaded.filter fun c => c.cluster == cluster && c.engine == e

/-- Contexts that an engine holds at once (R237). -/
def engineSize (cluster : Option Nat) : Nat := if cluster.isSome then 8 else 16

/-- An engine has room for one more context (R237). -/
def RegFerry.engineRoom (y : RegFerry) (cluster : Option Nat) (e : Nat) : Bool :=
  decide ((y.onEngine cluster e).length < engineSize cluster)

/-- Contexts loaded on the region ferries (R252). -/
def RegFerry.regionLoaded (y : RegFerry) : Nat := (y.loaded.filter (·.cluster.isNone)).length

/-- The region ferry that takes up the next start: the one with the fewest contexts, the lowest of equals
(log 138). -/
def RegFerry.freeFerry (y : RegFerry) : Option Nat :=
  let n := fun e => (y.onEngine none e).length
  firstBelow 8 fun e => y.engineRoom none e && (List.range 8).all fun f => decide (n e ≤ n f)

/-- Turns of 4 KiB that a context has had (R237). -/
def LoadedCtx.turns (c : LoadedCtx) : Nat := c.moved / 4096

/-- A context that joins an engine begins level with those of its PRIO that have had the fewest turns. -/
def RegFerry.join (y : RegFerry) (c : LoadedCtx) : LoadedCtx :=
  let ts := ((y.onEngine c.cluster c.engine).filter (·.c.prio == c.c.prio)).map (·.turns)
  { c with moved := 4096 * (ts.tail.foldl min (ts.headD 0)) }

/-- A context loaded on a region's engines under the next number. -/
def State.load (s : State) (r : Region) (mk : Nat → LoadedCtx) : State × Nat :=
  let n := (s.regions.get r).fy.nextId
  (s.onFerry r fun y => { y with nextId := n + 1, loaded := y.loaded ++ [y.join (mk n)] }, n)

def execFerryContextTakeup (r : Region) (e : Env) (s : State) : Host.Outcome State Fault Refusal :=
  let f := (s.regions.get r).fy
  match f.queue, f.freeFerry with
  | n :: rest, some e0 =>
    if s.ferriesRun r then
      let s1 := s.onFerry r fun y => { y with queue := rest }
      let x := s1.load r fun id => LoadedCtx.mk' id (some n) none none none e0 (s1.tableCtx n)
      .next ((⟨x.1.putTableCtx n (s1.tableCtx n).restart, e⟩ : W).beginCtx r x.2).s
    else .next s
  | _, _ => .next s

/-- A context's reads are asked for row by row, in ascending order (R241, R248): the row and piece next
due, with the rows that have begun. A read from a stack covers whole 64-byte blocks (R310). -/
def LoadedCtx.nextPiece (c : LoadedCtx) (f : Fmt) : Option (Nat × Nat × Nat × List RowBuf) :=
  match c.rows.find? fun b => !b.need.isEmpty with
  | some b => b.need.head?.map fun p => (b.row, p.1, p.2, c.rows)
  | none =>
    let row := match c.rows.getLast? with
      | some b => b.row + 1
      | none => c.c.cur
    let n := rowBytes f c.c.cols
    if row < c.c.total ∧ 0 < n then
      let a := c.c.srcRow (row / c.c.rows) (row % c.c.rows)
      let ps := pieces a n (n + 1) 0
      ps.head?.map fun p => (row, p.1, p.2, c.rows ++ [(⟨row, ps, 0, []⟩ : RowBuf)])
    else none

/-- The tags that a context, its region and the chiplet may hold allow one more read (R248, R252, R253). -/
def State.tagAllows (s : State) (r : Region) (c : LoadedCtx) : Bool :=
  let units := if c.c.tags = 0 then max s.proto.defTags.toNat 1 else c.c.tags
  s.tagRoom r && decide (s.regionTags r (· == c.id) < 16 * units)

/-- A context has a read beyond the chiplet to ask for. -/
def State.wantsRead (s : State) (c : LoadedCtx) : Bool :=
  c.c.op != 2 && !c.c.badFormat && !c.c.badPlace && match Fmt.ofCode c.c.fmt with
    | none => false
    | some f => match c.nextPiece f with
      | none => false
      | some (row, off, _, _) =>
        match s.locate ((c.c.srcRow (row / c.c.rows) (row % c.c.rows) + off) % 2 ^ 56) with
        | .stack _ | .away => true
        | _ => false

/-- Of two contexts of one engine the first goes ahead: higher PRIO, then fewer turns, then the older (R237). -/
def LoadedCtx.ahead (c d : LoadedCtx) : Bool :=
  decide (d.c.prio < c.c.prio) || c.c.prio == d.c.prio && (decide (c.turns < d.turns) ||
    c.turns == d.turns && decide (c.id ≤ d.id))

/-- A context's turn on its engine has come: none that could read goes ahead of it (R237). -/
def State.itsTurn (s : State) (r : Region) (c : LoadedCtx) : Bool :=
  (((s.regions.get r).fy.onEngine c.cluster c.engine).filter fun d =>
    s.wantsRead d && s.tagAllows r d).all fun d => c.ahead d

def execFerryReadIssue (r : Region) (id : Nat) (e : Env) (s : State) : Host.Outcome State Fault Refusal :=
  match s.loaded r id with
  | none => .next s
  | some c =>
    match Fmt.ofCode c.c.fmt, s.freeTag with
    | some f, some tag =>
      match c.nextPiece f with
      | none => .next s
      | some (row, off, n, rows) =>
        let a := (c.c.srcRow (row / c.c.rows) (row % c.c.rows) + off) % 2 ^ 56
        if !s.wantsRead c || !s.ferriesRun r || !s.tagAllows r c || !s.itsTurn r c then .next s
        else
          let x := (⟨s, e⟩ : W).exit a .read
          match x.2 with
          | .inr st => .next (x.1.ctxError r id (causeOf s a st)).s
          | .inl v =>
            let mem := isMemory v.port
            let skip := if mem then v.addr % 64 else 0
            let lo := v.addr - skip
            let len := if mem then (v.addr + n + 63) / 64 * 64 - lo else n
            let y := x.1.s.numbered v
            let q : Post :=
              { port := v.port, op := 1, atop := 0, addr := lo, len := len, data := [], op0 := 0, op1 := 0,
                ostr := y.2.1, oseq := y.2.2, use_ := .ferry r id row off n skip }
            if !y.1.mayPost q then .next s
            else
              let s1 := y.1.sendRead q tag
              .next (s1.onLoaded r id fun y =>
                { y with moved := y.moved + n, rows := rows.map fun b =>
                    if b.row = row then { b with need := b.need.drop 1, asked := b.asked + 1 } else b })
    | _, _ => .next s

/-! ## Staging (R192, R197, R198, R200, R203, R204) -/

/-- A working context of one batch plane set: source, destination and extents filled into a template
(R203, R238). `rows` and `cols` are those of the source as it lies in memory; `pad` is the columns and rows
of +0 that follow in the destination. -/
def fillTemplate (p : Pattern) (f : Fmt) (src dst rows cols planes srs sps drs dps mc mask : Nat)
    (pad : Nat × Nat) : FerryCtx :=
  { p.ctx with
    src := src, dst := dst, srcRs := srs, srcPs := sps, dstRs := drs, dstPs := dps, rows := rows,
    cols := cols, planes := planes, padCols := pad.1, padRows := pad.2, cur := 0, mc := mc, mcMask := mask,
    state := 0, cause := 0, fmt := f.code, nextEn := false }

/-- Multicast of a pattern: regions, clusters of DST's region, or none (R203, R243). -/
def Pattern.cast (p : Pattern) : Nat × Nat :=
  if p.level = 0 then (if p.regionMask = 0 then (0, 0) else (2, p.regionMask))
  else if p.clusterMask = 0 then (0, 0) else (1, p.clusterMask)

/-- Where the +0 that surrounds an operand in a cluster block ends: with the 128 rows or columns of the last
array tile in M or N, at K_pad in K, and with the block (R140, R198). -/
def padEnd (bs : List Nat) (l : Loop) (o : Nat → Nat) (d : Nat) : Nat :=
  let b := boundOf bs d
  min (if d = 2 then kPad b else 128 * ceilDiv b 128) (o d + l.ext d) - o d

/-- Rows and columns of operand A or B, in its own coordinates, that a cluster block holds with its padding;
other slots get no padding (R140, R142). -/
def paddedShape (c : Chart) (bs : List Nat) (lv i : Nat) (trans : Bool) (o : Nat → Nat) (rows cols : Nat) :
    Nat × Nat :=
  let e := padEnd bs (c.stageLoop lv) o
  if lv = 0 then (rows, cols)
  else match i with
    | 0 => if trans then (e 2, e 0) else (e 0, e 2)
    | 1 => if trans then (e 1, e 2) else (e 2, e 1)
    | _ => (rows, cols)

/-- The working contexts that stage one block, one for each step of B2 (R197, R198). The block holds what
lies within the bounds; cluster ferries pad the M, N and K edges of A and B with +0 (R140, R242). -/
def State.blockContexts (s : State) (c : Chart) (args : List Byte) (bs : List Nat) (p : Pattern) (n lv drv : Nat)
    (coords : List Nat) (slot : Nat) (from_ : Src) : List FerryCtx :=
  let l := c.stageLoop lv
  let o := fun d => coords.getD d 0 * l.ext d
  let a := boundArg c args p.arg
  let dst := s.blockPlace c lv n drv slot
  let nb := fun d => min (l.ext d) (boundOf bs d - o d)
  if p.arg = 14 ∨ p.arg = 15 then
    let f := (Fmt.ofCode p.ctx.fmt).getD .t8
    [{ p.ctx with src := from_.at f false from_.row0 from_.col0 (o 3) (o 4), dst := dst, cur := 0,
                  mc := p.cast.1, mcMask := p.cast.2, state := 0, cause := 0, nextEn := false }]
  else
    match slotFmt p.arg a.fmt with
    | none => []
    | some f =>
      let at0 := slotOrigin c bs p.arg a.trans o
      let ext := slotBound c bs p.arg a.trans
      let sh := blockCover c l p.arg a.trans o
      let rows := min sh.1 (ext.1 - at0.1)
      let cols := min sh.2 (ext.2 - at0.2)
      let padded := paddedShape c bs lv p.arg a.trans o rows cols
      let phys := fun (x : Nat × Nat) => if from_.swap then (x.2, x.1) else x
      let turn := fun (x : Nat × Nat) => if p.ctx.trans then (x.2, x.1) else x
      let out := turn (phys (blockShape c l p.arg a.trans))
      let real := turn (phys (rows, cols))
      let want := turn (phys padded)
      let drs := rowBytes f out.2
      let dps := out.1 * drs
      (List.range (nb 4)).map fun j =>
        fillTemplate p f (from_.at f (p.arg == 13) at0.1 at0.2 (o 3) (o 4 + j)) (dst + j * dps * max l.tb1 1)
          (phys (rows, cols)).1 (phys (rows, cols)).2 (nb 3) from_.rs from_.ps drs dps p.cast.1 p.cast.2
          (want.2 - real.2, want.1 - real.1)

/-- Source rows `[lo, hi)` of every plane of a context, with the padding that belongs to them: what stands
beside them in the destination, and the rest where they are the last (R238, R241, R242). -/
def FerryCtx.slice (c : FerryCtx) (lo hi : Nat) : FerryCtx :=
  let f := (Fmt.ofCode c.fmt).getD .t8
  let last := hi == c.rows
  { c with
    src := (c.src + lo * c.srcRs) % 2 ^ 56,
    dst := (c.dst + (if c.trans then colBytes f lo else lo * c.dstRs)) % 2 ^ 56, rows := hi - lo,
    padCols := if c.trans && !last then 0 else c.padCols,
    padRows := if c.trans || last then c.padRows else 0 }

/-- An L3 block split across the eight region ferries: its rows in eight parts of equal size, an even number of
rows each, with the ferry of each part (R238; DESIGN CHOICE, log 138). -/
def FerryCtx.split (c : FerryCtx) : List (Nat × FerryCtx) :=
  let k := 2 * ceilDiv c.rows 16
  if c.rows = 0 then [(0, c)]
  else (List.range 8).filterMap fun e =>
    if e * k < c.rows then some (e, c.slice (e * k) (min ((e + 1) * k) c.rows)) else none

/-- The contexts of a block with the engine of each: the eight region ferries for L3, else the cluster's engine
that serves the pattern, n mod 4 (R237, R238; log 19). -/
def engineShares (lv n : Nat) (cs : List FerryCtx) : List (Nat × FerryCtx) :=
  if lv = 0 then cs.flatMap (·.split) else cs.map fun c => (n % 4, c)

/-- A staged block passed through `f`. -/
def State.onStaged (s : State) (r : Region) (x : Staged) (f : Staged → Staged) : State :=
  let same := fun (y : Staged) => y.inst == x.inst && y.pat == x.pat && y.level == x.level && y.coords == x.coords
  s.onFerry r fun y => { y with staged := y.staged.map fun z => if same z then f z else z }

/-- Waiting contexts of a block loaded and begun while their engines have room (R237). -/
def W.feed (w : W) (r : Region) (x : Staged) (cluster tile : Option Nat) : List (Nat × FerryCtx) → W
  | [] => w
  | (e, c) :: rest =>
    if !(w.s.regions.get r).fy.engineRoom cluster e then w
    else
      let y := w.s.load r fun id => LoadedCtx.mk' id none cluster (some x.inst) tile e c
      let s1 := y.1.onStaged r x fun z => { z with ids := z.ids ++ [y.2], todo := rest }
      ((⟨s1, w.env⟩ : W).beginCtx r y.2).feed r x cluster tile rest

/-- Cluster of the engines that stage a block, and the tile that an L1 fill belongs to. -/
def Staged.cluster (x : Staged) : Option Nat := if x.level = 0 then none else some (x.coords.headD 0)
def Staged.tile (x : Staged) : Option Nat := if x.level = 2 then some ((x.coords.drop 1).headD 0) else none

/-- Every block of a region whose contexts wait is fed again. -/
def W.feedAll (w : W) (r : Region) : W :=
  ((w.s.regions.get r).fy.staged.filter fun x => !x.todo.isEmpty).foldl
    (fun w x => w.feed r x x.cluster x.tile x.todo) w

/-! ## Ends of contexts (R245) -/

/-- Every row is written and every write acknowledged (R245). -/
def LoadedCtx.complete (c : LoadedCtx) : Bool := decide (c.c.total ≤ c.c.cur) && c.acks == 0

/-- A staged block of a working context has one context fewer to wait for. -/
def State.stagedOne (s : State) (r : Region) (id : Nat) : State :=
  let one := fun (x : Staged) => if x.ids.contains id then { x with ids := x.ids.erase id, left := x.left - 1 } else x
  s.onFerry r fun y => { y with staged := y.staged.map one }

def execFerryContextDone (r : Region) (id : Nat) (e : Env) (s : State) :
    Host.Outcome State Fault Refusal :=
  match s.loaded r id with
  | none => .next s
  | some c =>
    if !c.complete || s.alarmed then .next s
    else
      let who := s.ferryUnit r c
      let rec_ : RecAdd := ⟨c.bytes, if c.number.isSome then 1 else 0, c.flags.toNat, none, none, []⟩
      match c.number with
      | some n =>
        let s1 := s.putTableCtx n { c.c with state := 2, cause := 0 }
        let w := (⟨s1, e⟩ : W).recUpdate who (s.recordOf c) rec_
        let w1 := w.on (·.unload r id)
        .next (if c.c.nextEn then w1.startCtx r c.c.next else w1).s
      | none =>
        let w := (⟨s, e⟩ : W).recUpdate who (s.recordOf c) rec_
        .next ((w.on fun s => (s.unload r id).stagedOne r id).feedAll r).s

/-! ## Blocks staged and slots filled (R200, R201, R204) -/

/-- The pattern that a cluster's engine served last (R251); pattern n is served by engine n mod 4
(log 19). -/
def State.served (s : State) (k n : Nat) : State :=
  s.onCluster (fin 63 k) fun y => { y with engPattern := y.engPattern.set! (n % 4) (BitVec.ofNat 8 n) }

/-- A block entered into the staging list; its contexts begin as their engines have room. -/
def W.stageWith (w : W) (me : Region × SlotNo) (lv drv n slot : Nat) (coords used : List Nat)
    (gone : List Staged) (cs : List FerryCtx) : W :=
  let r := driverRegion lv drv
  let todo := engineShares lv n cs
  let x : Staged := ⟨me, n, lv, drv :: coords, slot, todo.length, [], 0, todo, used⟩
  let w1 := w.on fun s => (if lv = 0 then s else s.served drv n).onFerry r fun y =>
    { y with staged := (y.staged.filter fun z => !gone.contains z) ++ [x] }
  w1.feed r x x.cluster x.tile todo

/-- Units of a block's mask that already hold a tile which uses it (R200, R204). -/
def State.usersOf (s : State) (me : Region × SlotNo) (c : Chart) (bs : List Nat) (p : Pattern) (drv : Nat)
    (coords : List Nat) : List Nat :=
  (p.units drv).filter fun u => (s.unitClusters me p.level u).any fun k =>
    (s.clusters.get k).needsBlock c bs p.level (drv :: coords)

/-- L3 and L2 staging of the block at `coords` by `drv`, when it is the next in the stager's order (R197, R198,
R200, R204). Nothing happens while the slot, the source block or the engines are not free. -/
def W.stageDense (w : W) (me : Region × SlotNo) (c : Chart) (p : Pattern) (n lv drv : Nat) (coords : List Nat) : W :=
  let s := w.s
  let i := s.inst me.1 me.2
  let bs := i.bounds
  let l := c.stageLoop lv
  let o := (List.range 5).map fun d => coords.getD d 0 * l.ext d
  let valid := blockValid c bs lv coords && !(s.unitClusters me lv drv).isEmpty &&
    (p.units drv).headD 64 == drv
  let from_ := if lv = 0 then some (argSrc (boundArg c i.args p.arg) s.pk.id.toNat)
    else s.src me c i.args drv 1 p.arg o
  if s.holdsBlock me lv n drv coords then w.feedAll (driverRegion lv drv)
  else match from_, s.pickSlot me c bs lv drv coords with
    | some x, some (slot, gone) =>
      if valid && s.stagerAt me c bs lv n drv coords then
        w.stageWith me lv drv n slot coords (s.usersOf me c bs p drv coords) gone
          (s.blockContexts c i.args bs p n lv drv coords slot x)
      else w
    | _, _ => w

/-- The contexts of an L1 fill of slot `slot` for a tile of cluster `k` (R152, R158, R201). The auxiliary tile's
rows stand 512 bytes apart whatever its format (DESIGN CHOICE, log 129). A USER slot goes to the place in
the shoal buffer that its template's DST names (DESIGN CHOICE, log 139). -/
def State.fillContexts (s : State) (c : Chart) (args : List Byte) (p : Pattern) (k t slot : Nat) (g : TileGeom)
    (x : Src) : List FerryCtx :=
  let dst := fun off => s.onChip (2 ^ 32 + k * 0x400000 + c.area off slot)
  let f := (slotFmt p.arg (boundArg c args p.arg).fmt).getD .t8
  let one := fun (rows cols row col off drs : Nat) =>
    let ph := if x.swap then (cols, rows) else (rows, cols)
    [fillTemplate p f (x.at f (p.arg == 13) row col g.b1 g.b2) (dst off) ph.1 ph.2 1 x.rs x.ps drs 0
      p.cast.1 p.cast.2 (0, 0)]
  match p.arg with
  | 11 => one g.mv g.nv g.row0 g.col0 c.l1addr.auxOff 512
  | 12 => one 1 g.mv 0 g.row0 c.l1addr.sideOff 512
  | 13 => one 1 2048 t 0 c.l1addr.constOff 2048
  | 14 | 15 =>
    [{ p.ctx with src := x.at ((Fmt.ofCode p.ctx.fmt).getD .t8) false x.row0 x.col0 g.b1 g.b2,
                  dst := s.onChip (2 ^ 32 + k * 0x400000 + p.ctx.dst % 0x400000), cur := 0,
                  mc := p.cast.1, mcMask := p.cast.2, state := 0, cause := 0, nextEn := false }]
  | _ => []

/-- The L1 fill of a tile's auxiliary tile, side vector, constants or USER slot (R152, R158, R201, R203), by the
lowest cluster of the mask for all of them; the array's own operands are streamed by its steps. -/
def W.fillL1 (w : W) (me : Region × SlotNo) (c : Chart) (p : Pattern) (n k t : Nat) : W :=
  let s := w.s
  let i := s.inst me.1 me.2
  let y := s.clusters.get (fin 63 k)
  match y.slotOf c t, y.pos with
  | some slot, some q =>
    let g := tileGeom c i.bounds t q.quad
    let busy := (p.units k).any fun u => (s.clusters.get (fin 63 u)).held.any fun x => x.2 == slot && x.1 != t
    if s.holdsBlock me 2 n k [t] then w.feedAll (driverRegion 2 k)
    else match s.src me c i.args k 2 p.arg [g.row0, g.col0, 0, g.b1, g.b2] with
      | none => w
      | some x =>
        let cs := s.fillContexts c i.args p k t slot g x
        if cs.isEmpty then w.on (·.served k n)
        else if busy || (p.units k).headD 64 != k then w
        else w.stageWith me 2 k n slot [t] [] [] cs
  | _, _ => w

def execStageBlock (r : Region) (slot : SlotNo) (pat : Nat) (coords : List Nat) (e : Env) (s : State) :
    Host.Outcome State Fault Refusal :=
  let i := s.inst r slot
  match i.chart, (i.chart.bind fun c => c.patterns[pat]?) with
  | some c, some p =>
    let drv := coords.headD 64
    let live := i.st == .running || i.st == .draining
    let mine := decide (drv < (if p.level = 0 then 8 else 64)) &&
      s.ferriesRun (driverRegion p.level drv) &&
      (p.level == 0 || s.clusterOn (fin 63 drv) && (s.clusters.get (fin 63 drv)).inst == some (r, slot))
    if !live || !mine then .next s
    else match p.level with
      | 0 => .next ((⟨s, e⟩ : W).stageDense (r, slot) c p pat 0 drv (coords.drop 1)).s
      | 1 => .next (if c.l2.slots = 0 then s.served drv pat
          else ((⟨s, e⟩ : W).stageDense (r, slot) c p pat 1 drv (coords.drop 1)).s)
      | 2 => .next ((⟨s, e⟩ : W).fillL1 (r, slot) c p pat drv ((coords.drop 1).headD 0)).s
      | _ => .next s
  | _, _ => .next s

/-! ## Write-back (R209, R210, R231, R246) -/

/-- Shoal offset and bytes of row `i` of an output tile, in one part or, for an F32P pair of vector
outputs, two. A vector output's row holds 64 elements of F32P and 128 of any other format; the epilogue's
tile holds 128 (R134, R160, R201; log 20). -/
def outParts (c : Chart) (o : OutSlot) (i : Nat) : List (Nat × Nat) :=
  let la := c.l1addr
  let vec := c.vprog.isSome && (o.arg == 10 || epiDest c.epi)
  let rb := if vec && o.fmt == .f32p then 512 else rowBytes o.fmt 128
  let part := fun off => (c.area off o.slot + i * rb, rb)
  if o.arg = 10 then [part la.out1Off]
  else if vec then
    (if o.fmt = .f32p then [part la.out0Off, part la.out1Off] else [part la.out0Off])
  else [part la.epiOff]

/-- In-bounds columns that an output slot holds (R141, R160). -/
def outCols (c : Chart) (o : OutSlot) : Nat :=
  min o.geom.nv (((outParts c o 0).map (·.2)).foldl (· + ·) 0 * 8 / o.fmt.width)

/-- What a write-back has done so far. -/
structure WbAcc where
  bytes : Nat
  sub : Bool
  nf : Option (Nat × Nat)
  deriving DecidableEq, Repr

/-- The codes of a row, added into what stands at the destination under ACCUM (R209, R210); the cause of
an error. -/
def W.accumulate (w : W) (who : Who) (c : Chart) (f : Fmt) (a : Nat) (es : List Nat) : W × (List Res ⊕ Nat) :=
  if c.accum then
    let x := w.read who a (rowBytes f es.length)
    if x.2.1 ≠ .ok then (x.1, .inr (accessCause w.s a (rowBytes f es.length) false x.2.1))
    else
      let old := unpackElems f es.length x.2.2
      (x.1, .inl ((old.zip es).map fun d => floatOp ⟨false, .ne, modeFlush c.mode && chartMode c != .strict⟩ .fadd f d.1 d.2 0))
  else (w, .inl (es.map fun e => ⟨e, false, false⟩))

/-- One row written back; the cause of an error, 0 for none. -/
def W.backRow (w : W) (who : Who) (c : Chart) (k : Fin 64) (o : OutSlot) (a i : Nat) (acc : WbAcc) :
    W × WbAcc × Nat :=
  let x := (outParts c o i).foldl (fun (y : W × Bool × List Byte) p =>
    let z := y.1.shoalRead k p.1 p.2
    (z.1, y.2.1 && z.2.1, y.2.2 ++ z.2.2)) (w, true, [])
  if !x.2.1 then (x.1, acc, 5)
  else
    let es := unpackElems o.fmt (outCols c o) x.2.2
    let y := x.1.accumulate who c o.fmt a es
    match y.2 with
    | .inr cause => (y.1, acc, cause)
    | .inl rs =>
      let out := packElems o.fmt (rs.map (·.code))
      let z := y.1.write who a out
      if z.2 ≠ .ok then (z.1, acc, accessCause w.s a out.length true z.2)
      else
        let bad := if c.accum then (rs.findIdx? fun v => o.fmt.isNonfinite v.code).map fun j => (i, j) else none
        (z.1, ⟨acc.bytes + out.length, acc.sub || rs.any (·.subflush), acc.nf.orElse fun _ => bad⟩, 0)

/-- Rows `i` and up written back while none fails. -/
def W.backRows (w : W) (who : Who) (c : Chart) (k : Fin 64) (o : OutSlot) (at_ : Nat → Nat) :
    Nat → Nat → WbAcc → W × WbAcc × Nat
  | 0, _, acc => (w, acc, 0)
  | n + 1, i, acc =>
    let x := w.backRow who c k o (at_ i) i acc
    if x.2.2 ≠ 0 then x else x.1.backRows who c k o at_ n (i + 1) x.2.1

/-- An output slot copied to its destination: record, counts, release of the slot; a failure loses the
tile and faults the instance (R209, R210, R231, R247, R369, R371). -/
def W.writeBack (w : W) (me : Region × SlotNo) (c : Chart) (p : Pattern) (n : Nat) (k : Fin 64) (q : Position)
    (o : OutSlot) : W :=
  let i := w.s.inst me.1 me.2
  let a := boundArg c i.args o.arg
  let who := w.s.clusterUnit me k.1 o.index
  let g := o.geom
  let at_ := fun j => elemAddr a o.fmt false w.s.pk.id.toNat (g.row0 + j) g.col0 g.b1 g.b2
  let x := if o.poisoned then (w, (⟨0, false, none⟩ : WbAcc), 5)
    else w.backRows who c k o at_ g.mv 0 ⟨0, false, none⟩
  let cause := x.2.2
  let acc := x.2.1
  let up := fun (z : Nat × Nat) => (z.1 + (if testBit q.quad 1 then 128 else 0), z.2 + (if testBit q.quad 0 then 128 else 0))
  let accNf := acc.nf.map fun z => (o.index, up z)
  let old := o.nf.map fun z => (o.index, z)
  let nf := match old, accNf with
    | some y, some z => some (nfMin y z)
    | some y, none => some y
    | none, z => z
  let flags := o.flags.toNat ||| bit acc.nf.isSome ||| (2 * bit acc.sub) ||| (if cause = 0 then 0 else flagError)
  let recCtx := LoadedCtx.mk' 0 none (some k.1) (some me) (some o.index) (n % 4) p.ctx
  let w1 := x.1.recUpdate who (w.s.recordOf recCtx)
    ⟨acc.bytes, if cause = 0 then 1 else 0, flags, if cause = 0 then none else some cause, nf, o.hist⟩
  let w2 := w1.on fun s => (s.served k.1 n).onCluster k fun y =>
    { y with outs := y.outs.filter (· != o), fyBytes := y.fyBytes + BitVec.ofNat 64 acc.bytes }
  let w3 := if cause = 0 then w2
    else
      (w2.fault (fin 7 q.region)
        { source := 2, cause := cause, region := q.region, cluster := q.cluster, inst := who.inst, tile := o.index,
          addr := at_ 0, detail := 2 ^ 31 }).on fun s => (s.loseTile me q.group o.index).faultInst me.1 me.2 4
  w3.on (·.settleTiles me q.group)

def execWriteBack (r : Region) (slot : SlotNo) (pos pat : Nat) (e : Env) (s : State) :
    Host.Outcome State Fault Refusal :=
  let i := s.inst r slot
  match i.chart, (i.chart.bind fun c => c.patterns[pat]?), (i.chart.bind fun c => c.positions[pos]?) with
  | some c, some p, some q =>
    let k := fin 63 (8 * q.region + q.cluster)
    let y := s.clusters.get k
    match y.outs.find? (·.arg == p.arg) with
    | none => .next s
    | some o =>
      let others := (s.groupClusters (r, slot) q.group).all (fun j => (s.clusters.get j).arrayDone o.index) &&
        ((c.members q.group).all (·.chiplet == s.pk.id.toNat) || e.groupDone)
      if p.level = 3 ∧ q.chiplet = s.pk.id.toNat ∧ y.inst = some (r, slot) ∧ !s.alarmed ∧ s.clusterOn k ∧
          (!shapeMulti (modeShape c.mode) || others) then
        .next ((⟨s, e⟩ : W).writeBack (r, slot) c p pat k q o).s
      else .next s
  | _, _, _ => .next s

/-! ## Scrubbing and clearing (R225, R227, R228) -/

/-- A scrub read of the slice, while the region's domain runs for its own work (R225, R392, R423). -/
def execScrubTick (r : Region) (e : Env) (s : State) : Host.Outcome State Fault Refusal :=
  let f := (s.regions.get r).fy
  if f.scrubEn ∧ s.regionOn r ∧ !s.power.forced ∧ !s.power.haltedRegions.getLsbD r.1 then
    let x := (⟨s, e⟩ : W).checkBlock (r.1 * 2 ^ 21 + f.scrubPos.toNat)
    .next (x.1.s.onFerry r fun y => { y with scrubPos := y.scrubPos + 1 })
  else .next s

/-- A write of LG_CLEAR (R227, R252). -/
def State.lgWrite (s : State) (r : Region) (v : Nat) : State :=
  if field v 6 24 / 2 ^ 21 = r.1 then s.blockPut (field v 6 24) (List.replicate 64 0) else s

def execLgClear (r : Region) (v : W64) (s : State) : Host.Outcome State Fault Refusal :=
  .next ((s.wakeRegion r).lgWrite r v.toNat)

end Sys2Proof.Machine
end

