-- ==== Sys2Proof/Machine/Life.lean ====
section
/-! DEFINITION. Lifetime records: the snapshot, the flash log and flushes, and the commands of
14_lifetime_records (R434-R449). -/

namespace Sys2Proof.Machine

/-! ## The snapshot (R434-R439) -/

/-- A bundle's 32-byte entry (R436). -/
def BundleLife.bytes (y : BundleLife) : List Byte :=
  natToBytes 8 y.crcErr.toNat ++ natToBytes 8 y.replay.toNat ++ natToBytes 4 y.diags.toNat ++
    natToBytes 2 y.spare.toNat ++ natToBytes 2 y.narrows.toNat ++ natToBytes 2 y.retires.toNat ++
    natToBytes 2 y.mapdiff.toNat ++ natToBytes 4 0

/-- A direction's 40 bytes of lane counts (R437). -/
def laneBytes (v : Vector Byte 37) : List Byte := v.toList ++ [0, 0, 0]

/-- The 15,200 bytes of the counts (R434). -/
def Counts.bytes (c : Counts) : List Byte :=
  c.general.toList.flatMap (fun x => natToBytes 8 x.toNat) ++ c.bundles.toList.flatMap BundleLife.bytes ++
    (c.lanesTx.toList.zip c.lanesRx.toList).flatMap (fun x => laneBytes x.1 ++ laneBytes x.2) ++
    c.temp.toList.flatMap (fun x => natToBytes 8 x.toNat) ++ c.droop.toList.flatMap (fun x => natToBytes 8 x.toNat)

/-- A bundle's entry from its bytes. -/
def BundleLife.ofBytes (bs : List Byte) : BundleLife :=
  { crcErr := BitVec.ofNat 64 (sub bs 0 8), replay := BitVec.ofNat 64 (sub bs 8 8),
    diags := BitVec.ofNat 32 (sub bs 16 4), spare := BitVec.ofNat 16 (sub bs 20 2),
    narrows := BitVec.ofNat 16 (sub bs 22 2), retires := BitVec.ofNat 16 (sub bs 24 2),
    mapdiff := BitVec.ofNat 16 (sub bs 26 2) }

/-- Counts from the bytes of a snapshot (R434, R440). -/
def Counts.ofBytes (bs : List Byte) : Counts :=
  let word := fun o => BitVec.ofNat 64 (sub bs o 8)
  let lane := fun o => BitVec.ofNat 8 (sub bs o 1)
  { general := Vector.ofFn fun i => word (8 * i.1)
    bundles := Vector.ofFn fun b => BundleLife.ofBytes ((bs.drop (0x200 + 32 * b.1)).take 32)
    lanesTx := Vector.ofFn fun b => Vector.ofFn fun l => lane (0xC40 + 80 * b.1 + l.1)
    lanesRx := Vector.ofFn fun b => Vector.ofFn fun l => lane (0xC40 + 80 * b.1 + 40 + l.1)
    temp := Vector.ofFn fun i => word (0x25E0 + 8 * i.1)
    droop := Vector.ofFn fun i => word (0x35E0 + 8 * i.1) }

/-- Two counts of a width added, stopping at the largest value (R434). -/
def addSat {w : Nat} (x y : BitVec w) : BitVec w := BitVec.ofNat w (satAdd w x.toNat y.toNat)

/-- Counts added entry by entry (R440). -/
def Counts.add (a b : Counts) : Counts :=
  { general := Vector.ofFn fun i => addSat (a.general.get i) (b.general.get i)
    bundles := Vector.ofFn fun i =>
      let x := a.bundles.get i
      let y := b.bundles.get i
      ⟨addSat x.crcErr y.crcErr, addSat x.replay y.replay, addSat x.diags y.diags, addSat x.spare y.spare,
        addSat x.narrows y.narrows, addSat x.retires y.retires, addSat x.mapdiff y.mapdiff⟩
    lanesTx := Vector.ofFn fun i => Vector.ofFn fun l => addSat ((a.lanesTx.get i).get l) ((b.lanesTx.get i).get l)
    lanesRx := Vector.ofFn fun i => Vector.ofFn fun l => addSat ((a.lanesRx.get i).get l) ((b.lanesRx.get i).get l)
    temp := Vector.ofFn fun i => addSat (a.temp.get i) (b.temp.get i)
    droop := Vector.ofFn fun i => addSat (a.droop.get i) (b.droop.get i) }

/-- LT_SNAP takes the counts (R446, R448). -/
def State.snapshot (s : State) : State :=
  { s with life := { s.life with snap := s.life.counts.bytes, snapValid := true, snapLater := false } }

/-! ## The ALARM record (R442) -/

/-- The ALARM record (R420, R442); it waits for a flush under way (R448). -/
def W.appendAlarm (w : W) : W :=
  if !w.s.pk.lead then w
  else if w.s.life.busy then w.on fun s => { s with life := { s.life with alarmLater := true } }
  else
    (w.append (w.s.logRecord 4 0 (natToBytes 4 w.s.sec.alarm.toNat ++ natToBytes 1 (bit w.s.sec.erased)))).on fun s =>
      { s with life := { s.life with alarmLater := false } }

/-! ## Flushes (R446-R448) -/

/-- A flush begins on the lead, for a reason of R442: this chiplet's snapshot is taken and the others are
asked for theirs. One runs at a time (R446, R448). -/
def State.beginFlush (s : State) (reason : BitVec 2) : State :=
  if s.life.busy then s
  else
    let s1 := s.snapshot.emit (.toPkg .collect)
    { s1 with life := { s1.life with busy := true, reason := reason } }

/-- Flood or Slack, with the package running on the lead (R448). -/
def State.leadRuns (s : State) : Bool :=
  s.pk.lead && s.pk.running && (s.power.st == .flood || s.power.st == .slack)

/-- LT_FLOOD_CC reaches 2^40: it is cleared and a flush begins, unless one runs (R446, R448). -/
def execLtFloodCcExpiry (s : State) : Host.Outcome State Fault Refusal :=
  if s.pk.lead ∧ s.pk.running ∧ !s.life.busy then
    .next (({ s with life := { s.life with floodCc := 0 } }).beginFlush 1)
  else .next s

/-- A write of LT_CTRL.FLUSH (R446, R448). -/
def State.wantFlush (s : State) : State := if s.leadRuns then s.beginFlush 3 else s

/-- A write of LT_CTRL.SNAP (R448). -/
def State.wantSnap (s : State) : State :=
  if s.life.busy then { s with life := { s.life with snapLater := true } } else s.snapshot

def execLtCtrlFlush (s : State) : Host.Outcome State Fault Refusal := .next s.wantFlush

def execLtCtrlSnap (s : State) : Host.Outcome State Fault Refusal := .next s.wantSnap

/-- A flush ends: the TOTALS record of this chiplet, those of the others, a SNAP and an ALARM record that waited,
SAFE_OFF, and a power-down flush that waited (R386, R442, R446-R448). A mirror takes the records it is sent
(R445). -/
def execFlushComplete (e : Env) (s : State) : Host.Outcome State Fault Refusal :=
  if !s.life.busy then .next (⟨s, e⟩ : W).takeRecords.s
  else
    let down := s.life.reason == 2
    let flags := bit s.life.fresh + 2 * s.life.reason.toNat
    let w := ((⟨s, e⟩ : W).append (s.logRecord 1 flags s.life.snap)).takeRecords
    let w1 := w.on fun s =>
      let n := satAdd 25 s.life.flushes.toNat 1
      { s with life := { s.life with busy := false, lastReason := s.life.reason, flushes := BitVec.ofNat 25 n },
               power := { s.power with safeOff := s.power.safeOff || down } }
    let w2 := if w1.s.life.alarmLater then w1.appendAlarm else w1
    let w3 := if w2.s.life.snapLater then w2.on (·.snapshot) else w2
    .next (if w3.s.power.offPending && !down then w3.s.beginFlush 2 else w3.s)

end Sys2Proof.Machine
end

