-- ==== Sys2Proof/Machine/Complete.lean ====
section
/-! DEFINITION. Answers: to other initiators, and to the chiplet's own requests (R249, R296, R301, R304,
R310), and ports that go down (R283). -/

namespace Sys2Proof.Machine

/-! ## Answering (R296) -/

/-- Port by which a response returns: the route to its initiator between RQ-family chiplets, otherwise the
port the request came by (R37, R296). -/
def State.backPort (s : State) (o : Origin) : Port :=
  if s.proto.fence.getLsbD o.port.1 then o.port else (s.routePort o.src.toNat).getD o.port

/-- The stream of an origin goes on once its request has taken effect (R303, R304). -/
def State.streamDone (s : State) (o : Origin) : State :=
  { s with proto := { s.proto with streams := s.proto.streams.map fun x =>
      if o.ostr ≠ 0 ∧ x.port = o.port ∧ x.src = o.src ∧ x.ostr = o.ostr then { x with busy := false } else x } }

/-- The OP of the response to an operation (R297). -/
def rspOp (op : Nat) : Nat := if op = 1 then 0x20 else if op = 4 ∨ op = 8 then 0x22 else 0x21

/-- A request of another initiator answered: its response, and read data when OK (R296, R297). -/
def State.respond (s : State) (o : Origin) (op : Nat) (st : Status) (result : Nat) (data : List Byte) : State :=
  let p := s.backPort o
  let s1 := s.sendFlit p (msgFlit 1 [rspSlot (rspOp op) o.src.toNat o.tag.toNat st result])
  let s2 := if op = 1 ∧ st = .ok then
      s1.sendFlit p (dataFlit 1 o.src.toNat s.pk.id.toNat o.tag.toNat data)
    else s1
  s2.streamDone o

/-! ## Completing the chiplet's own requests (R248, R249, R301, R310) -/

/-- CAUSE of a context's access that a port answered with another status than OK (R244, R245, R310). -/
def State.postCause (s : State) (x : Post) (st : Status) : Nat :=
  if isMemory x.port then 2
  else if s.proto.fence.getLsbD x.port.1 then 7
  else causeOf s x.addr st

/-- A piece of a context's row arrived; the rows at hand move (R241, R248). -/
def W.ferryData (w : W) (r : Region) (id row off n skip : Nat) (data : List Byte) : W :=
  let got := (off, ((data.drop skip) ++ List.replicate n 0).take n)
  let w1 := w.on (·.onLoaded r id fun c =>
    { c with rows := c.rows.map fun b =>
        if b.row = row then { b with asked := b.asked - 1, got := b.got ++ [got] } else b })
  match w1.s.loaded r id with
  | none => w1
  | some c => w1.pump r id (c.c.total + 1)

/-- A write of a context acknowledged (R245). -/
def State.ferryAck (s : State) (r : Region) (id : Nat) : State :=
  (s.onLoaded r id fun c => { c with acks := c.acks - 1 }).noteCur r id

/-- A request that has left its table completes with a status, result and data. -/
def W.finish (w : W) (x : Post) (st : Status) (result : Nat) (data : List Byte) : W :=
  match x.use_ with
  | .own => w
  | .ferry r id row off n skip =>
    if st = .ok then w.ferryData r id row off n skip data
    else match w.s.loaded r id with
      | none => w
      | some c =>
        let a := (c.c.srcRow (row / c.c.rows) (row % c.c.rows) + off) % 2 ^ 56
        w.ctxError r id (w.s.postCause { x with addr := a } st)
  | .ctxWrite r id row =>
    if st = .ok then w.on (·.ferryAck r id)
    else (w.on (·.onLoaded r id fun c => { c with c := { c.c with cur := min c.c.cur row } })).ctxError r id
      (w.s.postCause x st)
  | .serve o off n =>
    let st1 := if st ≠ .ok ∧ x.op ≠ 1 ∧ isMemory x.port then Status.error else st
    w.on (·.respond o x.op st1 result ((data.drop off).take n))
  | .merge o off bs =>
    if st = .ok then
      let new := data.take off ++ bs ++ data.drop (off + bs.length)
      w.on fun s =>
        let later := s.proto.waiting
        let s1 := { s with proto := { s.proto with waiting := [] } }
        let s2 := s1.post { x with op := 2, data := new, use_ := .serve o 0 0 }
        { s2 with proto := { s2.proto with waiting := s2.proto.waiting ++ later } }
    else w.on (·.respond o 2 .error 0 [])

/-- A read released from its tag, then completed (R248, R249). -/
def W.endRead (w : W) (t : Outst) (st : Status) (data : List Byte) : W :=
  ((w.on fun s => { s with proto := { s.proto with reads := s.proto.reads.filter fun y => y.id != t.id } }).finish
    t.x st 0 ((data ++ List.replicate t.x.len 0).take t.x.len)).on (·.postWaiting)

/-- A write, atomic, doorbell or TSB released from its identifier, then completed (R302). -/
def W.endWrite (w : W) (t : Outst) (st : Status) (result : Nat) : W :=
  ((w.on fun s => { s with proto := { s.proto with writes := s.proto.writes.filter fun y => y.id != t.id } }).finish
    t.x st result []).on (·.postWaiting)

/-- A write ends with another status than OK; an MWR's failure is counted (R310). -/
def W.failWrite (w : W) (t : Outst) (st : Status) : W :=
  (if isMemory t.x.port then w.on (·.memWriteFailed) else w).endWrite t st 0

/-- A response for a number no longer held is counted (R249, R435). -/
def State.stale (s : State) : State := s.count 29 1

/-- A read completion (R296, R310). -/
def W.readAnswer (w : W) (p : Port) (tag : BitVec 14) (st : Status) (crcs : W64) (data : List Byte) : W :=
  match w.s.proto.reads.find? (fun y => y.id == tag && y.x.port == p) with
  | none => w.on (·.stale)
  | some t =>
    if isMemory p ∧ st = .ok ∧ !stackCrcsOk t.x.addr data crcs.toNat then
      if t.resent then
        (w.on (·.memCrcFailed)).endRead t .error data
      else
        w.on fun s =>
          let s1 := (s.putRequest t.x tag).memReread
          let again := fun (y : Outst) => if y.id = tag then { y with resent := true } else y
          { s1 with proto := { s1.proto with reads := s1.proto.reads.map again } }
    else w.endRead t st data

/-- A write completion (R296, R310). -/
def W.writeAnswer (w : W) (p : Port) (tag : BitVec 14) (st : Status) (result : Nat) : W :=
  match w.s.proto.writes.find? (fun y => y.id == tag && y.x.port == p) with
  | none => w.on (·.stale)
  | some t =>
    if st = .ok then w.endWrite t st result
    else if isMemory p ∧ st = .error ∧ !t.resent then
      w.on fun s =>
        let s1 := s.putRequest t.x tag
        let again := fun (y : Outst) => if y.id = tag then { y with resent := true } else y
        { s1 with proto := { s1.proto with writes := s1.proto.writes.map again } }
    else w.failWrite t st

/-! ## Ports that go down (R283, R284, R369) -/

/-- A LINK record of chiplet-wide logic (R369). -/
def W.linkFault (w : W) (cause detail : Nat) : W :=
  w.fault 0 { source := 6, cause := cause, region := 0, detail := detail }

/-- Every request outstanding on a port completes with DOWN; those that wait for it too (R283, R301). -/
def W.allDown (w : W) (p : Port) : W :=
  let reads := w.s.proto.reads.filter (·.x.port == p)
  let writes := w.s.proto.writes.filter (·.x.port == p)
  let later := w.s.proto.waiting.filter (·.port == p)
  let w1 := w.on fun s =>
    { s with proto := { s.proto with
        reads := s.proto.reads.filter (·.x.port != p), writes := s.proto.writes.filter (·.x.port != p),
        waiting := s.proto.waiting.filter (·.port != p) } }
  let w2 := reads.foldl (fun w t => w.finish t.x .down 0 []) w1
  let w3 := writes.foldl (fun w t =>
    (if isMemory p then w.on (·.memWriteFailed) else w).finish t.x .down 0 []) w2
  (later.foldl (fun w x => w.finish x .down 0 []) w3).on (·.postWaiting)

/-- A port that goes down after step 9 of start-up halts it when it is REQUIRED. A member that has not yet got its
share cannot tell: it reports the port to the lead, which can (R347, R348; log 107). -/
def W.startPortDown (w : W) (p : Port) : W :=
  let id := w.s.pk.id.toNat
  let detail := place id 8 3 + p.1
  if w.s.pk.phase ≠ .starting ∨ w.s.pk.step.toNat < 9 then w
  else if !w.s.pk.lead && decide (w.s.pk.step.toNat < 11) then
    let h : Halt := ⟨true, w.s.pk.id, 9, BitVec.ofNat 16 detail⟩
    w.on (·.emit (.toPkg (.report (BitVec.ofNat 32 h.toNat))))
  else if portNeeded w.s.site.image w.s.presentIds id p.1 then w.halt w.s.pk.id 9 detail
  else w

/-- A port goes down until the next start (R283, R284). -/
def W.portDown (w : W) (p : Port) : W :=
  let w1 := w.on fun s => (s.onPort p fun q => { q with state := 4, txWait := [], retiring := [] })
  let w2 := w1.on fun s => (portBundles p).foldl (fun s b => s.onBundle b fun x => { x with held := [] }) s
  (((w2.linkFault 3 (place p.1 8 8)).allDown p).on (·.faultUsers p)).startPortDown p

end Sys2Proof.Machine
end

