-- ==== Sys2Proof/Machine/LinkCmds.lean ====
section
/-! DEFINITION. Training, maps, diagnosis, retirement, low power and credit returns: the commands of
08_causeway_link but FLIT_RECEIVED. -/

namespace Sys2Proof.Machine

/-! ## The assembly lane map (R268) -/

/-- MAPDIFF of a bundle set, and counted once in a start (R268, R435, R436). -/
def State.setMapdiff (s : State) (b : BundleNo) : State :=
  if (s.bundle b).mapdiff then s
  else
    let first := !(s.link.bundles.any fun x => x.mapdiff)
    let s1 := s.onBundle b fun x => { x with mapdiff := true }
    let s2 := s1.onBundleLife b fun y => { y with mapdiff := sat16 y.mapdiff 1 }
    if first then s2.count 34 1 else s2

/-- The maps chosen at this start held against the assembly lane map, once the image is known (R268). -/
def State.compareMaps (s : State) (b : BundleNo) : State :=
  match idRecord s.site.image 2 s.pk.id.toNat with
  | none => s
  | some rec_ =>
    let x := s.bundle b
    if spareLanes s.site.image rec_ b true != x.rxStart || spareLanes s.site.image rec_ b false != x.txStart then
      s.setMapdiff b
    else s

/-! ## Retirement in the field (R281-R284) -/

/-- CTRL RETIRE and RETIRE_ACK of a port-local bundle (R289). -/
def State.retireMsg (s : State) (b : BundleNo) : List Byte :=
  [3, BitVec.ofNat 8 (bundleLocal b)] ++ natToBytes 2 (s.bundle b).lastSeq.toNat

/-- RETIRE of a bundle sent on every other bundle of its port that is up (R281). -/
def State.sendRetire (s : State) (b : BundleNo) : State :=
  (s.bundlesIn (bundlePort b) 2).foldl (fun t c => t.sendCtrl c (s.retireMsg b)) s

/-- A bundle retired outside training (R281-R284). The last one takes its port down. -/
def W.retireField (w : W) (b : BundleNo) : W :=
  let p := bundlePort b
  let w1 := w.on fun s =>
    (s.onBundle b fun x => { x with state := 5, mapSent := false, mapGot := false, lp := 0 }).onBundleLife b fun y =>
      { y with retires := sat16 y.retires 1 }
  let w2 := w1.linkFault 2 b.1
  if (portBundles p).any fun c => (w2.s.bundle c).counted then
    w2.on fun s => ((s.onPort p fun q =>
      { q with retiring := q.retiring ++ [BitVec.ofNat 8 (bundleLocal b)] }).sendRetire b).portRests p
  else w2.portDown p

/-- Retirement at start or in the field, by what the bundle trains for (R266, R272, R281). -/
def W.retireBundle (w : W) (b : BundleNo) : W :=
  if (w.s.bundle b).why = .training then w.on (·.retireAtStart b) else w.retireField b

/-! ## Maps (R264, R265, R280, R282) -/

/-- A diagnosis that added no lane is remembered; the third within 2^30 cc retires the bundle (R282). -/
def Bundle.barrenRun (x : Bundle) : List Nat :=
  if x.added then x.barren else (x.barren.filter fun t => decide (x.diagCc < t + 2 ^ 30)) ++ [x.diagCc]

/-- The maps of an exchange are in force; those of training are the ones chosen at this start (R268, R290). -/
def Bundle.mapped (x : Bundle) : Bundle :=
  let y := { x with tx := x.txNew, rx := x.rxNew }
  if x.why = .training then { y with txStart := x.txNew.fail, rxStart := x.rxNew.fail } else y

/-- Once both maps are there: sync, or retirement when a direction cannot run (R262, R265, R280-R282). -/
def W.mapsReady (w : W) (b : BundleNo) : W :=
  let x := w.s.bundle b
  if !(x.mapSent && x.mapGot) then w
  else
    let diag := x.why == .diagnosis
    let run := if diag then x.barrenRun else x.barren
    let w1 := w.on fun s =>
      let s1 := s.onBundle b fun y => { y.mapped with barren := run }
      if x.why = .training then s1.compareMaps b else s1
    if 2 ≤ x.rxNew.mode.toNat ∨ 2 ≤ x.txNew.mode.toNat then w1.retireBundle b
    else if diag && !x.added && decide (3 ≤ run.length) then w1.retireField b
    else w1.on (·.beginSync b)

/-- The partner's map message taken: map, lanes newly excluded, LAST_SEQ (R263, R280, R284, R437). -/
def W.takeMap (w : W) (b : BundleNo) (m : W64) : W :=
  let x := w.s.bundle b
  let new : LaneMap := ⟨BitVec.ofNat 34 (field m.toNat 0 34), BitVec.ofNat 2 (field m.toNat 34 2)⟩
  let fresh := new.fail &&& ~~~x.tx.fail
  let w1 := w.on fun s =>
    let s1 := (s.onBundle b fun y =>
      { y with txNew := new, mapGot := true, added := y.added || fresh != 0 }).countTx b fresh.toNat
    let s2 := s1.countSpares b x.tx new
    if x.why = .training then s2 else s2.takeAck b (BitVec.ofNat 12 (field m.toNat 36 12))
  if new.mode = 1 ∧ x.tx.mode ≠ 1 then
    let w2 := w1.on (·.countNarrows b)
    if x.why = .training then w2 else w2.linkFault 1 b.1
  else w1

/-- A bundle that exchanges maps and has not yet accepted the partner's. -/
def Bundle.wantsMap (x : Bundle) : Bool :=
  !x.mapGot && ((x.state == 1 && decide (4 ≤ x.step)) || x.state == 3 || (x.state == 4 && x.mapSent))

/-- The voting set of a bundle: the lanes that its own test has not failed, so far or at its end (R264;
DEDUCED, log 148). -/
def Bundle.voters (x : Bundle) : List Nat :=
  votingSet (x.rxNew.fail ||| BitVec.ofNat 34 (x.alignBad.toNat % 2 ^ 34))

/-- The word of two consecutive copies of a map message, when it is accepted: each copy framed by VLD, the two
alike and the CRC correct (R259, R264). -/
def Bundle.readMap (x : Bundle) (uis : List (BitVec 36)) : Option W64 :=
  let one := votedWord x.voters (uis.take 64)
  let two := votedWord x.voters (uis.drop 64)
  if uis.length = 128 ∧ framed 64 uis ∧ one = two ∧ mapGood one then some one else none

/-- 128 UI of map message arrive (R264). -/
def execMapMessageAccepted (b : BundleNo) (uis : List (BitVec 36)) (e : Env) (s : State) :
    Host.Outcome State Fault Refusal :=
  match (s.bundle b).readMap uis with
  | none => .next s
  | some m =>
    if (s.bundle b).wantsMap then .next (((⟨s, e⟩ : W).takeMap b m).mapsReady b).s else .next s

/-! ## Training (R265, R266, R269, R272) -/

/-- A port without a partner is untrained and unpowered until the next start (R35, R265). -/
def State.noPartner (s : State) (p : Port) : State :=
  (portBundles p).foldl (fun s b => (s.emit (.clock b false)).onBundle b fun x => { x with state := 0, step := 0 })
    (s.onPort p fun q => { q with state := 0 })

/-- A bundle whose partner's clock is missing after 1 ms; `got` names those of its port that have received one,
locked or not (R265 step 2). -/
def execBundleClockTimeout (b : BundleNo) (got : List BundleNo) (s : State) : Host.Outcome State Fault Refusal :=
  let p := bundlePort b
  if (s.bundle b).state = 1 ∧ (s.bundle b).step = 1 ∧ !got.contains b then
    if (portBundles p).any fun c => got.contains c || (s.bundle c).state != 1 || decide (1 < (s.bundle c).step) then
      .next (s.retireAtStart b)
    else .next (s.noPartner p)
  else .next s

def execBundleLockDone (b : BundleNo) (s : State) : Host.Outcome State Fault Refusal :=
  if (s.bundle b).state = 1 ∧ (s.bundle b).step = 1 then
    .next ((s.emit (.prbs b prbsSeeds)).onBundle b fun x => { x with step := 4 })
  else .next s

def execLaneAlignDone (b : BundleNo) (bad : BitVec 36) (s : State) : Host.Outcome State Fault Refusal :=
  if (s.bundle b).state = 1 ∧ (s.bundle b).step = 4 then
    .next (s.onBundle b fun x => { x with step := 6, alignBad := bad })
  else .next s

def execLaneAcceptanceDone (b : BundleNo) (bad : BitVec 36) (clkOk : Bool) (s : State) :
    Host.Outcome State Fault Refusal :=
  if (s.bundle b).state = 1 ∧ (s.bundle b).step = 6 then
    let s1 := ((s.laneTest b bad clkOk).sendMap b).onBundle b fun x => { x with step := 7 }
    .next ((⟨s1, Env.quiet⟩ : W).mapsReady b).s
  else .next s

def execPrbsMapTimeout (b : BundleNo) (s : State) : Host.Outcome State Fault Refusal :=
  if (s.bundle b).state = 1 ∧ 4 ≤ (s.bundle b).step ∧ !(s.bundle b).mapGot then .next (s.retireAtStart b)
  else .next s

def execSyncTimeout (b : BundleNo) (e : Env) (s : State) : Host.Outcome State Fault Refusal :=
  if (s.bundle b).syncing then .next ((⟨s, e⟩ : W).retireBundle b).s else .next s

/-! ## Diagnosis (R276, R279-R281) -/

def execReplayTimeout (b : BundleNo) (s : State) : Host.Outcome State Fault Refusal :=
  if (s.bundle b).state = 2 then .next (s.replayOrDiag b) else .next s

def execDiagReq (b : BundleNo) (s : State) : Host.Outcome State Fault Refusal := .next (s.beginDiag b)

def execDiagCheckDone (b : BundleNo) (bad : BitVec 36) (clkOk : Bool) (cc : Nat) (e : Env) (s : State) :
    Host.Outcome State Fault Refusal :=
  let x := s.bundle b
  if x.state = 3 ∧ x.step = 3 then
    let s1 := (((s.onBundle b fun y => { y with diagCc := cc }).laneTest b bad clkOk).sendMap b).onBundle b fun y =>
      { y with step := 5 }
    let w : W := ⟨s1, e⟩
    let w1 := if (s1.bundle b).rxNew.mode = 1 ∧ x.rx.mode ≠ 1 then w.linkFault 1 b.1 else w
    .next (w1.mapsReady b).s
  else .next s

def execDiagMapTimeout (b : BundleNo) (e : Env) (s : State) : Host.Outcome State Fault Refusal :=
  if (s.bundle b).state = 3 ∧ !(s.bundle b).mapGot then .next ((⟨s, e⟩ : W).retireField b).s else .next s

/-- Bundle `lb` of a port, when the port has it. -/
def portBundle (p : Port) (lb : Nat) : Option BundleNo := (portBundles p)[lb]?

/-- A flit of a retired bundle sent again as new on its port; it holds its credit already (R281). -/
def State.sendAgain (s : State) (p : Port) (f : TxFlit) : State :=
  (if f.exchange then s else s.onPort p fun q => { q with sent := vmod q.sent f.cls (· - 1) }).sendFlit p f

/-- The partner's RETIRE (R281): it is answered, and the flits that the partner lacks go again on the other
bundles; the rest are discarded. -/
def W.takeRetire (w : W) (p : Port) (lb : BitVec 8) (lastSeq : BitVec 12) : W :=
  match portBundle p lb.toNat with
  | none => w
  | some b =>
    let w1 := if (w.s.bundle b).state = 5 ∨ (w.s.bundle b).state = 0 then w else w.retireField b
    if (w1.s.port p).state = 4 then w1
    else w1.on fun s =>
      let s1 := match (s.bundlesIn p 2).head? with
        | some c => s.sendCtrl c [4, lb]
        | none => s
      let again := ackHeld lastSeq (s1.bundle b).held
      again.foldl (fun s f => s.sendAgain p f.2) (s1.onBundle b fun x => { x with held := [] })

/-- The partner's RETIRE_ACK (R281, R289). -/
def State.takeRetireAck (s : State) (p : Port) (lb : BitVec 8) : State :=
  s.onPort p fun q => { q with retiring := q.retiring.filter (· != lb) }

def execRetire (p : Port) (lb : BitVec 8) (lastSeq : BitVec 12) (e : Env) (s : State) :
    Host.Outcome State Fault Refusal :=
  .next ((⟨s, e⟩ : W).takeRetire p lb lastSeq).s

def execRetireAck (p : Port) (lb : BitVec 8) (s : State) : Host.Outcome State Fault Refusal :=
  .next (s.takeRetireAck p lb)

/-! ## Low power (R285, R287, R288) -/

/-- A bundle enters low power: its forwarded clock stops and its lanes are held at 0. Once no bundle of the
port is up, the port is in low power (R287). -/
def State.bundleSleeps (s : State) (b : BundleNo) : State :=
  ((s.emit (.clock b false)).onBundle b fun x => { x with state := 4, lp := 4 }).portRests (bundlePort b)

/-- Every bundle of a port that is up, or in diagnosis, is to enter low power (R285, R287). -/
def State.lpEnter (s : State) (p : Port) : State :=
  (portBundles p).foldl (fun s b => s.onBundle b fun x =>
    if (x.state = 2 ∨ x.state = 3) ∧ x.lp = 0 then { x with lp := 1 } else x) s

/-- LP_REQ sent, or the owed LP_ACK, once the replay buffer is empty (R287). -/
def execReplayBufferEmpty (b : BundleNo) (s : State) : Host.Outcome State Fault Refusal :=
  let x := s.bundle b
  if x.state = 2 ∧ x.held = [] ∧ x.lp = 1 then
    .next ((s.sendCtrl b [5]).onBundle b fun y => { y with lp := 3 })
  else if x.state = 2 ∧ x.held = [] ∧ x.lp = 2 then .next ((s.sendCtrl b [6]).bundleSleeps b)
  else .next s

/-- The partner's LP_REQ (R287): answered at once when nothing is held, otherwise once it is empty. -/
def State.takeLpReq (s : State) (b : BundleNo) : State :=
  let x := s.bundle b
  if x.state ≠ 2 then s
  else if x.held = [] then (s.sendCtrl b [6]).bundleSleeps b
  else s.onBundle b fun y => { y with lp := 2 }

/-- The partner's LP_ACK (R287). -/
def State.takeLpAck (s : State) (b : BundleNo) : State :=
  if (s.bundle b).state = 2 ∧ (s.bundle b).lp = 3 then s.bundleSleeps b else s

def execLpReq (b : BundleNo) (s : State) : Host.Outcome State Fault Refusal := .next (s.takeLpReq b)

def execLpAck (b : BundleNo) (s : State) : Host.Outcome State Fault Refusal := .next (s.takeLpAck b)

/-- Exit from low power: clocks and TRK, PRBS31, the check of VLD and the lanes 0-33 in use, the held map (R288,
R437). -/
def execLpExit (b : BundleNo) (bad : BitVec 36) (s : State) : Host.Outcome State Fault Refusal :=
  let x := s.bundle b
  if x.state = 4 ∧ !x.mapSent then
    let tested := bad.toNat % 2 ^ 35
    let found := tested - (tested &&& x.rx.fail.toNat)
    let s1 := ((s.drive b).emit (.prbs b prbsSeeds)).onBundle b fun y =>
      { y with why := .lpExit, lp := 0, mapGot := false, rxNew := y.rx, alignBad := 0, diagAfter := decide (found ≠ 0) }
    .next ((s1.countRx b found).sendMap b)
  else .next s

/-! ## Credits and repetitions (R281, R287, R300) -/

/-- The repetitions that fall due every 64 flit times: RETIRE and LP_REQ (R281, R287). -/
def State.repeatCtrl (s : State) (p : Port) : State :=
  let s1 := (s.port p).retiring.foldl (fun s lb => match portBundle p lb.toNat with
    | some b => s.sendRetire b
    | none => s) s
  (portBundles p).foldl (fun s b =>
    if (s.bundle b).state = 2 ∧ (s.bundle b).lp = 3 then s.sendCtrl b [5] else s) s1

def execCreditReturnTimer (p : Port) (s : State) : Host.Outcome State Fault Refusal :=
  let s1 := s.onPort p fun q => { q with ticks := q.ticks + 1 }
  let s2 := if (s1.port p).ticks = 0 then s1.repeatCtrl p else s1
  match (s2.bundlesIn p 2).head? with
  | some b => if (s2.port p).freed ≠ (s2.port p).returned then .next (s2.sendIdle b) else .next s2
  | none => .next s2

end Sys2Proof.Machine
end

