-- ==== Sys2Proof/Machine/Power.lean ====
section
/-! DEFINITION. Clock domains, Ebb, wake-up and temperature: the commands of 12_power_thermal. -/

namespace Sys2Proof.Machine

/-! ## Clock domains (R375-R379) -/

/-- Power control passed through `f`. -/
def State.onPower (s : State) (f : PowerSt → PowerSt) : State := { s with power := f s.power }

/-- A region's clock started or stopped. -/
def State.setRegion (s : State) (r : Region) (on : Bool) : State :=
  s.onPower fun p => { p with regionsOn := setBit p.regionsOn r.1 on }.settle

/-- Clusters' clocks started; the region of a cluster that runs is clocked too. -/
def State.startClusters (s : State) (ks : List Nat) : State :=
  ks.foldl (fun s k => (s.onPower fun p =>
    { p with clustersOn := setBit p.clustersOn k true }).setRegion (clRegion (fin 63 k)) true) s

def execClusterStartSlot (s : State) : Host.Outcome State Fault Refusal :=
  if s.clocks ∧ !s.power.forced then
    let ks := s.power.waiting.take 8
    .next ((s.startClusters ks).onPower fun p => { p with waiting := p.waiting.drop 8 })
  else .next s

/-- The group of a cluster's position has drawn the sentinel, or its instance only waits for a STOP (R377). -/
def State.groupRests (s : State) (k : Fin 64) : Bool :=
  let y := s.clusters.get k
  match y.inst, y.pos with
  | some (r, n), some q =>
    let i := s.inst r n
    i.st != .running && i.groups.all (fun g => g.g != q.group || g.redo.isEmpty) || i.groups.any fun g => g.g == q.group && g.done
  | _, _ => true

/-- A cluster is idle: no tile anywhere in it, no ferry of its own at work (R377). -/
def State.clusterIdle (s : State) (k : Fin 64) : Bool :=
  let y := s.clusters.get k
  y.quiet && y.issued.isEmpty && y.outs.isEmpty && y.chainIn.due.isEmpty && s.groupRests k &&
    !((s.regions.get (clRegion k)).fy.loaded.any fun c => c.cluster == some k.1)

def execClusterIdleTimeout (r : Region) (c : Cluster) (s : State) : Host.Outcome State Fault Refusal :=
  let k := clIdx r c
  if s.clusterIdle k ∧ !s.power.haltedClusters.getLsbD k.1 then
    .next (s.onPower fun p => { p with clustersOn := setBit p.clustersOn k.1 false })
  else .next s

/-- The conditions of Slack in a region; that its controller waits is part of the event (R378). -/
def State.regionIdle (s : State) (r : Region) : Bool :=
  let x := s.regions.get r
  ((List.range 8).all fun c => !s.power.clustersOn.getLsbD (8 * r.1 + c)) &&
    ((x.insts.toList.take 32).all fun i => i.st != .running && i.st != .draining) &&
    (x.rings.toList.all fun q => !(q.en && q.head != q.tail) && q.hold.isNone) && x.current.isNone &&
    x.fy.queue.isEmpty && x.fy.loaded.isEmpty

def execRegionSlackTimeout (r : Region) (s : State) : Host.Outcome State Fault Refusal :=
  if s.power.runs ∧ s.regionIdle r then .next (s.setRegion r false) else .next s

def execRegionWake (r : Region) (s : State) : Host.Outcome State Fault Refusal :=
  if s.clocks ∧ !s.power.haltedRegions.getLsbD r.1 then .next (s.setRegion r true) else .next s

/-! ## Ebb entry (R381-R383, R387) -/

/-- A region has an instance at work, a record issued and not retired, or a context queued or running (R381). -/
def State.regionBusy (s : State) (r : Region) : Bool :=
  let x := s.regions.get r
  ((x.insts.toList.take 32).any fun i => i.st == .running || i.st == .draining) ||
    (x.rings.toList.any fun q => q.opened.any fun o => !o.retired) || x.current.isSome ||
    !x.fy.queue.isEmpty || !x.fy.loaded.isEmpty

/-- The low-power feature bit of a port's profile (R307, R381). -/
def lpBit (p : Port) : Nat := if isMemory p then 8 else if isPeer p then 5 else 17

/-- A request is outstanding on some port: one of this chiplet's own, or one received and not yet answered, in a
stream, in a port's receive buffer, or with its answer still to leave (R381). -/
def State.portsBusy (s : State) : Bool :=
  !s.outstanding.isEmpty || !s.proto.waiting.isEmpty || s.proto.streams.any (fun x => x.busy || !x.waiting.isEmpty) ||
    s.link.ports.toList.any fun p => !p.inbox.isEmpty || !p.payWait.isEmpty || !p.txWait.isEmpty

/-- Why this chiplet refuses Ebb: code and region or port; the lowest code prevails (R381, R448, log 24). -/
def State.ebbRefusal (s : State) : Option (BitVec 4 × BitVec 8) :=
  let regions := (List.range 8).map (fin 7)
  let busy := regions.find? s.regionBusy
  let noLp := ((List.range 7).map (fin 6)).find? fun p =>
    (s.port p).state == 2 && !(s.proto.pfeat.get p).getLsbD (lpBit p)
  let halted := regions.find? fun r =>
    s.power.haltedRegions.getLsbD r.1 || (List.range 8).any fun c => s.power.haltedClusters.getLsbD (8 * r.1 + c)
  if !s.pk.running then some (1, 0)
  else if busy.isSome ∨ s.portsBusy ∨ s.life.busy then
    some (2, BitVec.ofNat 8 ((busy.map (·.1)).getD 0))
  else match noLp with
    | some p => some (3, BitVec.ofNat 8 p.1)
    | none => match halted with
      | some r => some (4, BitVec.ofNat 8 r.1)
      | none => if s.power.st = .enterEbb ∨ s.power.st = .waking then some (5, 0) else none

/-- A refused request's PW_EBB_STATUS (R381). -/
def State.refuseEbb (s : State) (code : BitVec 4) (chip : BitVec 3) (at_ : BitVec 8) : State :=
  s.onPower fun p => { p with ebbResult := code, ebbChip := chip, ebbWhere := at_ }

/-- Entry to Ebb begins: nothing more starts and every domain stops (R382 step 2). -/
def State.beginEbb (s : State) : State :=
  s.onPower fun p =>
    { p with st := .enterEbb, ebbStep := 2, regionsOn := 0, clustersOn := 0, wakeDue := !p.waiting.isEmpty }

/-- A write of PW_PKG.EBB_REQ; ignored on a member, and in Ebb (R381, R396, R430). -/
def W.ebbReq (w : W) : W :=
  let s := w.s
  if !s.pk.lead ∨ s.power.st = .ebb ∨ s.power.st = .off then w
  else match s.ebbRefusal with
    | some (code, at_) => w.on (·.refuseEbb code s.pk.id at_)
    | none => match w.env.peers with
      | (chip, code, at_) :: _ => w.on (·.refuseEbb code chip at_)
      | [] => w.on fun s => (s.refuseEbb 0 0 0).beginEbb.emit (.toPkg .enterEbb)

def execEbbReq (e : Env) (s : State) : Host.Outcome State Fault Refusal := .next ((⟨s, e⟩ : W).ebbReq).s

/-- What the loss of compute-tier power loses (R232, R383). -/
def State.dropTier (s : State) : State :=
  let s1 := s.zeroShoal
  { s1 with
    clusters := s1.clusters.map fun y =>
      { y with consts := [0, 0, 0, 0], queue := [], chainIn := ChainBuf.empty, bank := [], outs := [] },
    regions := s1.regions.map fun x =>
      { x with fy := { x.fy with staged := x.fy.staged.filter (·.level == 0) } } }

/-- Ports that Ebb takes down first: all but a member's upstream port (R382). -/
def State.lowerPorts (s : State) : List Port :=
  ((List.range 7).map (fin 6)).filter fun p => s.pk.lead || p.1 != s.pk.upPort.toNat

/-- No port of a list is still up. -/
def State.portsDown (s : State) (ps : List Port) : Bool := ps.all fun p => (s.port p).state != 2

/-- Every port retrained: no bundle of any is in low power any more (R288, R385). -/
def State.portsBack (s : State) : Bool := s.link.bundles.toList.all fun b => b.state != 4

/-- The package is in Ebb: the PLL stops, and a wake event, doorbell or access met on the way begins the wake at
once (R382, R387). -/
def State.reachEbb (s : State) : State :=
  let s1 := ({ s with pk := { s.pk with pllLock := false } }.onPower fun p =>
    { p with st := .ebb, ebbStep := 0 }).count 60 1
  if s.power.wakePending = 0 ∧ !s.power.wakeDue then s1
  else
    let s2 := { s1 with ao := { s1.ao with cause := s1.ao.cause ||| s.power.wakePending } }
    s2.onPower fun p => { p with st := .waking, wakeStep := 1, wakePending := 0, wakeDue := false }

/-- The next step of entry (R382). On a member the lead's word begins it. -/
def execEbbEntryProgress (s : State) : Host.Outcome State Fault Refusal :=
  let up := fin 6 s.pk.upPort.toNat
  let step := fun (s : State) n => s.onPower fun p => { p with ebbStep := n }
  if s.power.runs then (if s.pk.lead || !s.pk.running then .next s else .next s.beginEbb)
  else if s.power.st ≠ .enterEbb then .next s
  else match s.power.ebbStep with
    | 2 => .next (step s.dropTier 3)
    | 3 => .next (step (s.lowerPorts.foldl (fun s p => if (s.port p).state = 2 then s.lpEnter p else s) s) 4)
    | 4 =>
      if !s.portsDown s.lowerPorts then .next s
      else if s.pk.lead then .next s.reachEbb
      else .next (step (s.lpEnter up) 5)
    | _ => if s.portsDown [up] then .next s.reachEbb else .next s

/-! ## Wake-up (R384, R385, R387) -/

/-- A wake event at the lead: `bits` join AO_WAKE_CAUSE (R384). -/
def State.wakeEvent (s : State) (bits : BitVec 5) : State :=
  if !s.pk.lead then s
  else if s.power.st = .enterEbb then s.onPower fun p => { p with wakePending := p.wakePending ||| bits }
  else if s.power.st = .ebb then
    { s with ao := { s.ao with cause := s.ao.cause ||| bits } }.onPower fun p =>
      { p with st := .waking, wakeStep := 1 }
  else s

def execAoCmdWake (s : State) : Host.Outcome State Fault Refusal := .next (s.wakeEvent 1)

def execWakeTimerExpiry (s : State) : Host.Outcome State Fault Refusal :=
  if s.ao.timerEn ∧ s.power.st = .ebb then .next (s.wakeEvent 2) else .next s

def execPortWakeRequest (p : Port) (s : State) : Host.Outcome State Fault Refusal :=
  if isMemory p then .next s
  else if (portBundles p).any fun b => (s.bundle b).state == 4 then .next (s.wakeEvent (if isPeer p then 8 else 4))
  else .next s

/-- Vector constants of bound instances reloaded from the image (R385 step 7). -/
def State.reloadConsts (s : State) : State :=
  ((List.range 64).map (fin 63)).foldl (fun s k =>
    match (s.clusters.get k).inst with
    | some (r, n) => match ((s.inst r n).chart).bind (·.vprog) with
      | some v => s.onCluster k fun y => { y with consts := if v.consts.isEmpty then y.consts else v.consts }
      | none => s
    | none => s) s

/-- The package leaves Ebb in Slack, and the regions that work has reached since start (R385 steps 8 and 9). -/
def State.leaveEbb (s : State) : State :=
  let s1 := (s.onPower fun p =>
    PowerSt.settle { p with st := .slack, wakeStep := 0, ebbResult := 6, ebbChip := 0, ebbWhere := 0,
                            wakes := if p.wakes = 255 then 255 else p.wakes + 1,
                            regionsOn := p.regionsOn ||| p.regionsDue, regionsDue := 0 }).count 61 1
  if s.pk.lead then s1.emit (.toPkg .enterSlack) else s1

/-- The next step of a wake (R385); a member's first is the arrival of its upstream clock, and its last the
lead's word. An alarm met in Ebb zeroes the lagoon on the way (R431). -/
def execWakeProgress (othersReady : Bool) (s : State) : Host.Outcome State Fault Refusal :=
  let step := fun (s : State) n => s.onPower fun p => { p with wakeStep := n }
  let locked := fun (s : State) =>
    let s1 := if s.vault.zeroDue then { s.zeroLagoon with vault := { s.vault with zeroDue := false, zeroed := true } } else s
    step { s1 with pk := { s1.pk with pllLock := true } } 2
  if s.power.st = .ebb then
    if s.pk.lead then .next s else .next (locked (s.onPower fun p => { p with st := .waking }))
  else if s.power.st ≠ .waking then .next s
  else match s.power.wakeStep with
    | 1 => .next (locked s)
    | 2 => if s.portsBack then .next (step s 4) else .next s
    | 4 => .next (step s 5)
    | 5 => .next (step s.zeroShoal 6)
    | 6 => .next (step s.reloadConsts 7)
    | _ => if othersReady then .next s.leaveEbb else .next s

/-! ## Orderly power-down (R386) -/

/-- A write of PW_PKG.OFF_REQ on the lead in Flood or Slack: every ring of the package stops, and the lifetime
records are appended. On a member it is ignored (R386, R396). -/
def State.offReq (s : State) : State :=
  if s.pk.lead ∧ s.power.runs ∧ !s.power.offPending then
    ((s.onPower fun p => { p with offPending := true }).emit (.toPkg .stopRings)).beginFlush 2
  else s

/-- OFF_REQ at the lead; with `told`, the lead's word that stops a member's rings (R386). -/
def execOffReq (told : Bool) (s : State) : Host.Outcome State Fault Refusal :=
  if told then .next (if s.pk.lead || !s.power.runs then s else s.onPower fun p => { p with offPending := true })
  else .next s.offReq

/-! ## Temperature (R388-R394, R438, R439) -/

/-- The valid readings of a sample: inside −40 to 150 °C, in eighths of a degree, the compute tier's none in
Ebb (R388, R389). -/
def validTemps (ebb : Bool) (rs : List (Option Int)) : List (Option Int) :=
  (List.range 64).map fun i =>
    match rs.getD i none with
    | some t => if decide (-320 ≤ t) && decide (t ≤ 1200) && (decide (i < 32) || !ebb) then some t else none
    | none => none

/-- The hottest valid reading among sensors `lo` to `lo + n - 1`, with its sensor; the lowest of equals. -/
def hottest (ts : List (Option Int)) (lo n : Nat) : Option (Nat × Int) :=
  (List.range n).foldl (fun o i =>
    match ts.getD (lo + i) none, o with
    | some t, none => some (lo + i, t)
    | some t, some (j, u) => if u < t then some (lo + i, t) else some (j, u)
    | none, _ => o) none

/-- The next throttle level for Tb in eighths of a degree (R390). -/
def nextLevel (l : Nat) (tb : Int) : Nat :=
  let target := if tb < 764 then 0 else min 8 ((tb - 760) / 4).toNat
  if l < target then target else if target < l ∧ tb < 756 + 4 * (l : Int) then l - 1 else l

/-- A latch with a threshold to set and a lower one to clear (R392, R393); an unknown Tb sets it (R389). -/
def latch (was : Bool) (tb : Option Int) (on off : Int) : Bool :=
  match tb with
  | none => true
  | some t => if on ≤ t then true else was && decide (off ≤ t)

/-- Temperature bin of R438. -/
def tempBin (t : Int) : Nat := if t < 200 then 0 else min 31 (1 + ((t - 200) / 24).toNat)

/-- The temperature histograms of a sample (R438). -/
def State.addTemps (s : State) (ts : List (Option Int)) : State :=
  (List.range 16).foldl (fun s i =>
    match hottest ts (4 * i) 4 with
    | some (_, t) => { s with life := { s.life with counts := { s.life.counts with
        temp := vmod s.life.counts.temp (fin 511 (32 * i + tempBin t)) fun x => sat64 x 1 } } }
    | none => s) s

/-- The droop histograms of a sample, in mV per monitor (R439). -/
def State.addDroops (s : State) (ds : List Nat) : State :=
  (List.range 11).foldl (fun s m =>
    if s.power.st = .ebb ∧ m < 8 then s
    else { s with life := { s.life with counts := { s.life.counts with
        droop := vmod s.life.counts.droop (fin 175 (16 * m + min (ds.getD m 0 / 10) 15)) fun x => sat64 x 1 } } }) s

/-- The 1,000 always-on cycles that end with a sample: AO_CC, times by state and by level, LT_FLOOD_CC on the lead (R388, R391, R396, R435, R446; log 25). -/
def State.passTime (s : State) : State :=
  let l := s.power.level.toNat
  let s1 := { s with ao := { s.ao with cc := s.ao.cc + 1000 } }
  match s.power.st with
  | .flood =>
    let s2 := (s1.count 2 1000).count (fin 63 (5 + l)) 1000
    if s.pk.lead then
      { s2 with life := { s2.life with floodCc := s2.life.floodCc + BitVec.ofNat 64 (262500 * (16 - l) / 16) } }
    else s2
  | .slack => (s1.count 3 1000).count (fin 63 (5 + l)) 1000
  | .ebb => s1.count 4 1000
  | _ => s1

/-- What a sample sets: level, forced Slack, THERM_N, CT_OVER, SENSOR_FAIL, PW_TEMP and PW_TMAX, each rise
counted. `rs` are the readings and `ts` those of them that are valid; PW_TEMP shows the latest reading
also where it is invalid (R389-R394, R396, R435). -/
def State.takeSample (s : State) (rs ts : List (Option Int)) : State :=
  let p := s.power
  let base := hottest ts 0 32
  let comp := hottest ts 32 32
  let tb := base.map (·.2)
  let fail := (List.range 8).any fun r => (hottest ts (4 * r) 4).isNone
  let hot := comp.any fun x => decide (840 < x.2)
  let level := if fail then 8 else match tb with
    | some t => nextLevel p.level.toNat t
    | none => 8
  let forced := latch p.forced tb 880 856
  let therm := latch p.therm tb 920 896
  let s1 := s.onPower fun p =>
    { p with level := BitVec.ofNat 4 level, forced := forced, therm := therm, ctOver := hot, sensorFail := fail,
             forcedCnt := if forced && !p.forced then p.forcedCnt + 1 else p.forcedCnt }
  let s2 := { s1 with ao := { s1.ao with
      temps := Vector.ofFn fun i => match ts.getD i.1 none, rs.getD i.1 none with
        | some t, _ => (true, BitVec.ofInt 12 t)
        | none, some t => (false, BitVec.ofInt 12 t)
        | none, none => (false, (s1.ao.temps.get i).2)
      tmaxBtSensor := match base with
        | some x => BitVec.ofNat 5 x.1
        | none => s1.ao.tmaxBtSensor
      tb := match base with
        | some x => BitVec.ofInt 12 x.2
        | none => s1.ao.tb
      tmaxCtSensor := match comp with
        | some x => BitVec.ofNat 5 (x.1 - 32)
        | none => s1.ao.tmaxCtSensor
      tmaxCt := match comp with
        | some x => BitVec.ofInt 10 (x.2 / 8)
        | none => s1.ao.tmaxCt } }
  let rise := fun (s : State) (now was : Bool) i => if now && !was then s.count i 1 else s
  let s3 := rise (rise (rise (rise s2 forced p.forced 14) therm p.therm 15) hot p.ctOver 16) fail p.sensorFail 17
  if therm = p.therm then s3 else s3.emit (.thermN therm)

/-- A sample of the sensors (R388); the always-on controller of a chiplet in reset takes none (R341, R434). -/
def execThermalSample (readings : List (Option Int)) (droops : List Nat) (s : State) :
    Host.Outcome State Fault Refusal :=
  if s.power.st = .off ∨ s.pk.phase = .inReset then .next s
  else
    let ts := validTemps (s.power.st == .ebb) readings
    .next (((s.passTime.takeSample readings ts).addTemps ts).addDroops droops)

end Sys2Proof.Machine
end

