-- ==== Sys2Proof/Machine/Sec.lean ====
section
/-! DEFINITION. Alarms, debug, attestation and the test access chain: the commands of 13_security_debug. -/

namespace Sys2Proof.Machine

/-- SEC_ registers passed through `f`. -/
def State.onSec (s : State) (f : Sec → Sec) : State := { s with sec := f s.sec }

/-- Prodom's vault passed through `f`. -/
def State.onVault (s : State) (f : Vault → Vault) : State := { s with vault := f s.vault }

/-- Prodom is clocked: in every state but Ebb and Off (R376, R430). -/
def State.prodomRuns (s : State) : Bool := s.power.st != .ebb && s.power.st != .off

/-! ## LOCK and ERASE (R144, R182, R250, R367, R417-R421, R431, R432) -/

/-- A table context in RUNNING set to ERROR with cause ALARM (R250). -/
def State.alarmContexts (s : State) : State :=
  let running := s.mem.ctx.filterMap fun c =>
    if c.1 % 64 = 1 ∧ field c.2.toNat 2 4 = 1 then some (c.1 / 64) else none
  running.foldl (fun s n => s.putTableCtx n { s.tableCtx n with state := 3, cause := 8 }) s

/-- A cluster discards everything; the tile in pass is aborted with cause alarm (R144, R145, R182). -/
def ClusterSt.alarm (y : ClusterSt) : ClusterSt :=
  let z := match y.tile with
    | some t => { y with lastIndex := BitVec.ofNat 64 t.index, tileStatus := mxAbort 6 }
    | none => y
  { z with issued := [], tile := none, promo := none, drain := none, chainIn := ChainBuf.empty, fault := none,
           queue := [], vc := none, outs := [] }

/-- Requests of a context that have not gone out yet (R250). -/
def Post.ofContext (x : Post) : Bool := x.context.isSome

/-- An alarm discards every tile of a group that is not written: all of them are owed (R144, R371). -/
def Group.dropAll (g : Group) : Group :=
  { g with lost := (g.owed ++ g.inPass.toList ++ g.wb).foldl (fun l x => setInsert x l) [], ahead := none,
           inPass := none, wb := [], redo := [] }

/-- Every engine, ring and instance stops: engines discard their contexts and issue nothing more, and every
instance of the chiplet, and of another with positions here, is Faulted with REASON 0x7 (R144, R182, R250,
R367). -/
def State.stopEngines (s : State) : State :=
  let aborted := (s.clusters.toList.filter fun y => y.tile.isSome).length
  let s1 := (s.alarmContexts).count 22 aborted
  let down := fun (x : Inst × Nat) => if x.1.st = .idle ∧ 32 ≤ x.2 then x.1 else
    let gs := sortGroups (x.1.groups.map Group.dropAll)
    { x.1 with st := .faulted, reason := 7, faulting := 0, stopPending := false, groups := gs,
               redo := gs.flatMap (·.lost) }
  { s1 with
    proto := { s1.proto with waiting := s1.proto.waiting.filter fun x => !x.ofContext },
    clusters := s1.clusters.map ClusterSt.alarm,
    regions := s1.regions.map fun x =>
      { x with insts := x.insts.zipIdx.map down, fy := { x.fy with queue := [], loaded := [], staged := [] } } }

/-- The status records and INSTANCE records of the instances that an alarm sends to Faulted, in ascending region
and slot, where the chiplet is clocked; an instance without a chart has neither (R369, R370; log 111). -/
def W.alarmRecords (w : W) (xs : List (Region × SlotNo)) : W :=
  (xs.filter fun x => ownSlot x.2 && w.s.clocks).foldl (fun w x =>
    let y := w.writeInstStatus x.1 x.2
    y.1.fault x.1
      { source := 0xB, cause := 7, region := x.1.1, inst := w.s.instName x.1 x.2, detail := (w.s.inst x.1 x.2).redo.length }) w

/-- Each source newly set in this LOCK counted (R435). -/
def State.countAlarms (s : State) (srcs : BitVec 8) : State :=
  let new := srcs &&& ~~~(if s.vault.locking then s.vault.lockSrcs else 0)
  ((List.range 8).filter new.getLsbD).foldl (fun s i => s.count (fin 63 (36 + i)) 1) s

/-- ERASE adds to LOCK: the seed latch, and this chiplet's helper entry in every flash (R404, R421). A chiplet
strapped lead or standby holds a flash. -/
def State.erase (s : State) : State :=
  let mine := s.pk.strap == 1 || s.pk.strap == 2
  ((s.onVault fun v =>
    { v with latch := none, erasing := true, overwrites := if mine then v.overwrites ++ [v.serial] else v.overwrites }
    ).onSec fun x => { x with erased := true }).emit (.toPkg (.eraseEntry s.vault.serial))

/-- LOCK, and ERASE with it: steps 1 to 3 of R420, all of them within 2 µs. In Ebb the memories are zeroed
during the wake that the alarm brings (R384, R431); start-up stops without a halt code (R348, R476). -/
def W.alarm (w : W) (srcs : BitVec 8) (own erase : Bool) : W :=
  let s := w.s
  if s.power.st = .off then w
  else
    let s1 := (s.countAlarms srcs).onSec fun x =>
      { x with alarm := x.alarm ||| srcs, keysLive := false, level := 0, att := 3, pkgAuth := false,
               attResult := if x.attResult = 1 then 3 else x.attResult,
               dbgResult := if x.dbgResult = 1 then 7 else x.dbgResult }
    let asleep := s.power.st == .ebb || s.power.st == .enterEbb
    let s2 := s1.onVault fun v =>
      { v with seed := none, locking := true, lockSrcs := (if v.locking then v.lockSrcs else 0) ||| srcs,
               zeroed := false, attWait := false, nextTree := false, nonceValid := false,
               driving := v.driving || own, zeroDue := v.zeroDue || asleep }
    let s3 := (s2.stopEngines).onPower fun p => { p with haltedRegions := 0, haltedClusters := 0 }
    let s4 := if own && !s.vault.driving then s3.emit (.alarmN true) else s3
    let s5 := if s4.pk.phase = .starting ∨ s4.pk.phase = .standbyWait then s4.endStart .stopped else s4
    (w.on fun _ => (if erase then s5.erase else s5).wakeEvent 16).alarmRecords s.liveInsts

/-- SEC_POLICY.ERASE_MASK holds bit `i`, from step 16 on (R419). -/
def State.erases (s : State) (i : Nat) : Bool := decide (16 ≤ s.pk.step.toNat) && s.sec.eraseMask.getLsbD i

/-- A source of the chiplet's own; DEBUG3, and PEER, only ever LOCK (R418, R419). -/
def W.ownAlarm (w : W) (src : Nat) : W :=
  w.alarm (BitVec.ofNat 8 (2 ^ src)) true (decide (src < 6) && w.s.erases src)

def execAlarmSourceDetect (src : Fin 8) (e : Env) (s : State) : Host.Outcome State Fault Refusal :=
  if src = 6 then .next s else .next ((⟨s, e⟩ : W).ownAlarm src.1).s

def execPeerAlarm (e : Env) (s : State) : Host.Outcome State Fault Refusal :=
  if s.vault.driving then .next s else .next ((⟨s, e⟩ : W).alarm 64 false false).s

def execEraseSignal (e : Env) (s : State) : Host.Outcome State Fault Refusal :=
  if s.erases 6 then .next ((⟨s, e⟩ : W).alarm 64 false true).s else .next s

/-- Every domain halted for D3 (R427). -/
def State.openD3 (s : State) : State :=
  if !s.vault.debug3 then s
  else ((s.onVault fun v => { v with debug3 := false }).onSec fun x => { x with level := 3, levelMax := 3 }).onPower
    fun p => { p with haltedRegions := BitVec.allOnes 8, haltedClusters := BitVec.allOnes 64 }

/-- Step 4 of R420 is complete: zeros in lagoon and shoal; D3 opens where a token asked for it (R427); the
lead logs the alarm. The domains must be clocked (R431). -/
def execLockZeroingDone (e : Env) (s : State) : Host.Outcome State Fault Refusal :=
  if s.vault.locking ∧ !s.vault.zeroed ∧ s.clocks then
    let s1 := s.zeroLagoon.zeroShoal.onVault fun v =>
      { v with zeroed := true, zeroDue := false, locking := v.driving }
    .next ((⟨s1.openD3, e⟩ : W).appendAlarm).s
  else .next s

def execAlarmNRelease (s : State) : Host.Outcome State Fault Refusal :=
  if s.vault.driving ∧ s.vault.zeroed then
    .next ((s.onVault fun v => { v with driving := false, locking := false, erasing := false }).emit (.alarmN false))
  else .next s

/-- A flash holder programs an entry to zeros, once its flash is free, Alarmed or not (R421). -/
def execHelperOverwrite (serial : W64) (s : State) : Host.Outcome State Fault Refusal :=
  if (s.pk.strap = 1 ∨ s.pk.strap = 2) ∧ !s.life.busy then
    .next ((s.emit (.erased serial)).onVault fun v => { v with overwrites := v.overwrites.filter (· != serial) })
  else .next s

/-! ## Debug tokens (R423-R427) -/

/-- Bytes of the owner certificate's keys (R400). -/
def ownerSect (m : Mem) : List Byte :=
  match imgSect m 4 with
  | some x => sectBytes m x
  | none => []
def certRootPub (c : List Byte) : List Byte := (c.drop 16).take 60
def certOwnerPub (c : List Byte) : List Byte := (c.drop 76).take 60
def certDebugPub (c : List Byte) : List Byte := (c.drop 136).take 60

/-- The key that verifies tokens in the present lifecycle state (R408). -/
def State.tokenKey (s : State) : List Byte :=
  let c := ownerSect s.site.image
  if !s.sec.owned then certRootPub c
  else if (certDebugPub c).all (· == 0) then certOwnerPub c else certDebugPub c

/-- A token's format (R399, R424). -/
def tokenFormat (t : List Byte) : Bool :=
  let n := sub t 5 1
  sub t 0 4 == 0x54445152 && decide (1 ≤ sub t 4 1) && decide (sub t 4 1 ≤ 3) && decide (1 ≤ n) && decide (n ≤ 8) &&
    sub t 6 2 == 0 && sub t 12 4 == 0 && decide (sub t 8 4 ≤ 5716) &&
    ((t.drop (80 + 32 * n)).take (256 - 32 * n)).all (· == 0)

/-- A token's signature verifies (R424, R425). -/
def State.tokenSigned (s : State) (t : List Byte) : Bool :=
  hssVerify s.tokenKey (t.take 336) ((t.drop 336).take (sub t 8 4))

/-- The token names this device (R425). -/
def State.tokenNames (s : State) (t : List Byte) : Bool :=
  (List.range (sub t 5 1)).any fun i => sub t (80 + 32 * i) 32 == s.sec.devId.toNat

/-- The RESULT of a token check, in the order of R425 (log 26). -/
def State.tokenResult (s : State) (t : List Byte) : BitVec 4 :=
  if s.alarmed ∨ !s.sec.keysLive then 7
  else if !tokenFormat t then 3
  else if !s.vault.nonceValid ∨ sub t 16 32 ≠ s.sec.nonce.toNat then 5
  else if sub t 48 32 ≠ (if s.sec.owned then s.sec.owner.toNat else 0) then 7
  else if !s.tokenSigned t then 4
  else if !s.tokenNames t then 6
  else if sub t 4 1 ≤ s.sec.level.toNat then 7
  else 2

/-- A level granted; level 3 raises DEBUG3 and opens once LOCK is complete (R426, R427). -/
def W.grant (w : W) (level : Nat) : W :=
  if level = 3 then (w.on (·.onVault fun v => { v with debug3 := true })).ownAlarm 7
  else w.on fun s => s.onSec fun x =>
    { x with level := BitVec.ofNat 2 level,
             levelMax := if x.levelMax.toNat < level then BitVec.ofNat 2 level else x.levelMax }

/-- A write of SEC_DBG.NEW_NONCE (R425). -/
def State.newNonce (s : State) : State :=
  if !s.prodomRuns then s
  else (s.onSec fun x => { x with nonce := Config.drbg s.vault.drbg }).onVault fun v =>
    { v with drbg := v.drbg + 1, nonceValid := true }

/-- A write of SEC_DBG.GO (R425). -/
def W.tokenGo (w : W) : W :=
  let s := w.s
  if !s.prodomRuns then w
  else
    let t := memReadN s.sec.token 0 6052
    let res := s.tokenResult t
    let s1 := (s.onSec fun x => { x with dbgResult := res }).onVault fun v => { v with nonceValid := false }
    if res = 2 then (w.on fun _ => s1.emit (.toPkg (.token t))).grant (sub t 4 1)
    else w.on fun _ => (s1.onSec fun x => { x with tokenFails := BitVec.ofNat 32 (satAdd 32 x.tokenFails.toNat 1) }).count 32 1

def execNewNonce (s : State) : Host.Outcome State Fault Refusal := .next s.newNonce

def execTokenGo (e : Env) (s : State) : Host.Outcome State Fault Refusal := .next ((⟨s, e⟩ : W).tokenGo).s

def execTokenForward (token : List Byte) (e : Env) (s : State) : Host.Outcome State Fault Refusal :=
  if s.prodomRuns ∧ !s.alarmed ∧ s.sec.keysLive ∧ tokenFormat token ∧ s.tokenSigned token ∧ s.tokenNames token ∧
      s.sec.level.toNat < sub token 4 1 then .next ((⟨s, e⟩ : W).grant (sub token 4 1)).s
  else .next s

/-- The level lowered; leaving D2 releases the halted domains (R426, R433). -/
def State.lowerLevel (s : State) (lv : BitVec 2) : State :=
  if s.prodomRuns ∧ s.sec.level ≠ 3 ∧ lv.toNat < s.sec.level.toNat then
    let s1 := s.onSec fun x => { x with level := lv }
    if s.sec.level = 2 then s1.onPower fun p => { p with haltedRegions := 0, haltedClusters := 0 } else s1
  else s

def execLowerEn (lv : BitVec 2) (s : State) : Host.Outcome State Fault Refusal := .next (s.lowerLevel lv)

/-! ## Attestation (R411-R416) -/

/-- The DEV_PUB of an ID in the ENROL section (R406). -/
def enrolPub (m : Mem) (id : Nat) : List Byte :=
  match idRecord m 3 id with
  | some o => memReadN m (o + 12) 60
  | none => []

/-- PKG_HASH of a report (R414). -/
def State.pkgHash (s : State) : List Byte :=
  if !s.sec.pkgAuth then List.replicate 32 0
  else sha256 ((List.range 8).flatMap fun d =>
    if s.presentIds.contains d then sha256 (enrolPub s.site.image d) else List.replicate 32 0)

/-- IMG_HASH of a report (R414). -/
def State.imgHash (s : State) : List Byte :=
  sha256 (memReadN s.site.image 0 256 ++ memReadN s.site.image (imgDirOff s.site.image) (48 * imgNsect s.site.image))

/-- Bytes 0-255 of a report with signature index `q` (R414). -/
def State.reportHead (s : State) (q : Nat) : List Byte :=
  let n := fun w (x : Nat) => natToBytes w x
  let alarms := (List.range 8).foldl (fun a i => a + (s.life.counts.general.get (fin 63 (36 + i))).toNat) 0
  n 4 0x52415152 ++ n 1 (bit s.sec.owned) ++ n 1 s.sec.level.toNat ++ n 1 s.sec.levelMax.toNat ++
    n 1 (bit s.sec.bindPending + 2 * bit s.sec.pkgAuth) ++ n 8 s.vault.serial.toNat ++ n 32 s.sec.attNonce.toNat ++
    n 32 s.sec.devId.toNat ++ n 32 (if s.sec.owned then s.sec.owner.toNat else 0) ++ s.imgHash ++
    n 8 s.pk.imageSeq.toNat ++ n 8 s.pk.powerOn.toNat ++ n 8 s.ao.cc.toNat ++ n 8 q ++ s.pkgHash ++
    n 4 s.proto.pkgFeat.toNat ++ n 1 s.pk.id.toNat ++ n 1 s.pk.stepping.toNat ++ n 1 (bit s.pk.grade) ++ n 1 0 ++
    n 4 (min alarms (2 ^ 32 - 1)) ++ n 36 0

/-- The HMAC of a reservation record's first 32 bytes (R413). -/
def reserveMac (seed : BitVec 256) (body : List Byte) : List Byte := hmacSha256 (Config.reserveKey seed) body

/-- A reservation record (R413). -/
def reserveRecord (seed : BitVec 256) (serial : W64) (next : Nat) : List Byte :=
  let body := natToBytes 8 serial.toNat ++ natToBytes 4 next ++ natToBytes 20 0
  body ++ reserveMac seed body

/-- Whether the bottom tree of the next index is built; a tree just begun replaces the former (R411, R412). -/
def State.treeReady (s : State) : Option State :=
  let t := s.sec.leaf.toNat / 32768
  if t = s.vault.tree then some s
  else if s.vault.nextTree then some (s.onVault fun v => { v with tree := t, nextTree := false }) else none

/-- The next signature index taken; its block is reserved first, in every flash (R411, R413, R445). -/
def W.takeIndex (w : W) : W × Option Nat :=
  let q := w.s.sec.leaf.toNat
  if 2 ^ 25 ≤ q then (w, none)
  else
    let k := q / 256
    let take := fun (w : W) =>
      (w.on fun s => s.onSec fun x =>
        { x with leaf := x.leaf + 1, att := if q + 1 = 2 ^ 25 then 2 else x.att }, some q)
    if w.s.vault.block = some (BitVec.ofNat 32 k) then take w
    else
      let w1 := w.append (w.s.logRecord 6 0 (reserveRecord (w.s.vault.seed.getD 0) w.s.vault.serial (k + 1)))
      if !w1.appended then (w1, none)
      else take (w1.on fun s => s.onVault fun v =>
        { v with block := some (BitVec.ofNat 32 k), blockHeld := BitVec.ofNat 32 (k + 1) })

/-- A signature of 5,236 bytes (R411). -/
def sign (seed : BitVec 256) (q : Nat) (msg : List Byte) : List Byte :=
  (Config.hssSign seed q msg ++ List.replicate 5236 0).take 5236

/-- SEC_ATT_CTRL.RESULT set. -/
def State.attResult (s : State) (r : BitVec 4) : State := s.onSec fun x => { x with attResult := r }

/-- A report signed and written at SEC_ATT_DST (R414, R415). -/
def W.attReport (w : W) : W :=
  let x := w.takeIndex
  match x.2 with
  | none => x.1.on (·.attResult 3)
  | some q =>
    let head := x.1.s.reportHead q
    let y := x.1.write (x.1.s.unit 0) x.1.s.sec.attDst.toNat (head ++ sign (x.1.s.vault.seed.getD 0) q head)
    y.1.on (·.attResult (if y.2 = .ok then 2 else 3))

/-- The destination's 5,504 bytes lie in this chiplet's lagoon (R415). -/
def State.attDstOk (s : State) : Bool :=
  match s.locate s.sec.attDst.toNat with
  | .lagoon off => decide (off + 5504 ≤ 0x40000000)
  | _ => false

/-- A write of SEC_ATT_CTRL.GO (R412, R415). -/
def W.attGo (w : W) : W :=
  if !w.s.prodomRuns then w
  else if w.s.alarmed ∨ w.s.sec.att ≠ 1 then w.on (·.attResult 3)
  else if !w.s.attDstOk then w.on (·.attResult 4)
  else match w.s.treeReady with
    | none => w.on fun s => (s.attResult 1).onVault fun v => { v with attWait := true }
    | some s => ({ w with s := s } : W).attReport

def execAttGo (e : Env) (s : State) : Host.Outcome State Fault Refusal := .next ((⟨s, e⟩ : W).attGo).s

/-- A pending binding signed and appended; it stays pending when the append fails (R409, R410, R445). -/
def W.bindOwner (w : W) : W :=
  if !w.s.sec.bindPending then w
  else
    let x := w.takeIndex
    match x.2 with
    | none => x.1
    | some q =>
      let s := x.1.s
      let count := match s.vault.binding with
        | some b => b.count.toNat + 1
        | none => 0
      let body := natToBytes 8 s.vault.serial.toNat ++ natToBytes 4 count ++ natToBytes 4 5236 ++
        natToBytes 32 s.sec.devId.toNat ++ natToBytes 32 s.sec.owner.toNat ++ natToBytes 8 s.pk.imageSeq.toNat ++
        natToBytes 40 0
      let w1 := x.1.append (s.logRecord 5 0 (body ++ sign (s.vault.seed.getD 0) q body))
      if !w1.appended then w1
      else w1.on fun s => (s.onSec fun x => { x with bindPending := false }).onVault fun v =>
        { v with binding := some ⟨BitVec.ofNat 32 count, natToBytes 32 s.sec.owner.toNat, s.pk.imageSeq⟩ }

def execAttestationReady (e : Env) (s : State) : Host.Outcome State Fault Refusal :=
  if s.sec.keysLive ∧ s.sec.att = 0 then
    let s1 := (s.onSec fun x => { x with att := if x.leaf.toNat = 2 ^ 25 then 2 else 1 }).onVault fun v =>
      { v with tree := s.sec.leaf.toNat / 32768 }
    .next ((⟨s1, e⟩ : W).takeRecords.bindOwner).s
  else .next (⟨s, e⟩ : W).takeRecords.s

/-- The next bottom tree is built, from leaf 16,384 of the current one on; a request that waited goes on
(R412). -/
def execBottomTreeBuilt (e : Env) (s : State) : Host.Outcome State Fault Refusal :=
  let q := s.sec.leaf.toNat
  if s.sec.att = 1 ∧ (16384 ≤ q % 32768 ∨ q / 32768 ≠ s.vault.tree) then
    let s1 := s.onVault fun v => { v with nextTree := true }
    if s.vault.attWait then
      match (s1.onVault fun v => { v with attWait := false }).treeReady with
      | some t => .next ((⟨t, e⟩ : W).attReport).s
      | none => .next s1
    else .next s1
  else .next s

/-- A member's report verifies under its DEV_PUB, with the lead's nonce (R414, R416). -/
def State.memberOk (s : State) (reports : List (BitVec 3 × List Byte)) (d : Nat) : Bool :=
  reports.any fun x =>
    x.1.toNat == d && x.2.length == 5492 && sub x.2 0 4 == 0x52415152 &&
      sub x.2 16 32 == (Config.drbg (s.vault.drbg + d)).toNat &&
      hssVerify (enrolPub s.site.image d) (x.2.take 256) (x.2.drop 256)

/-- The lead asks every member for a report with a fresh nonce, and verifies it (R416). -/
def execPackageAuth (reports : List (BitVec 3 × List Byte)) (e : Env) (s : State) : Host.Outcome State Fault Refusal :=
  if s.pk.lead ∧ s.pk.running ∧ s.sec.att = 1 ∧ !s.sec.pkgAuth ∧ !s.alarmed then
    let ids := s.presentIds.filter (· != s.pk.id.toNat)
    let asked := ids.foldl (fun s d => s.emit (.toPkg (.attest d (Config.drbg (s.vault.drbg + d))))) s
    let s1 := asked.onVault fun v => { v with drbg := v.drbg + 8 }
    if ids.all (s.memberOk reports) then .next (s1.onSec fun x => { x with pkgAuth := true })
    else .next ((⟨s1, e⟩ : W).ownAlarm 4).s
  else .next s

def execAttReadyTimeout (e : Env) (s : State) : Host.Outcome State Fault Refusal :=
  if s.pk.lead ∧ s.pk.running ∧ !s.sec.pkgAuth ∧ !s.alarmed then .next ((⟨s, e⟩ : W).ownAlarm 4).s else .next s

/-! ## The test access chain (R423, R428, R429) -/

/-- A segment can be opened (R429). -/
def State.segmentOpens (s : State) (id : BitVec 3) : Bool :=
  !s.idAbsent id.toNat && id != s.pk.id && s.proto.pkgFeat.getLsbD 2 &&
    match s.routePort id.toNat with
    | some p => (s.port p).state == 2
    | none => false

/-- The level that an instruction or instrument needs (R423). -/
def tapLevel : TapInstr → Nat
  | .bypass | .idcode | .sample | .segment .. | .shift .. => 0
  | .observe => 1
  | .halt _ | .release _ | .lagoonWrite .. | .lagoonRead _ => 2
  | .scan | .mbist | .extest => 3

/-- A domain halted or released: region 0-7, or cluster 8 + 8r + c (R376, R423). A domain that is stopped
starts first (R387). -/
def State.haltDomain (s : State) (d : Nat) (on : Bool) : State :=
  if d < 8 then
    (if on then s.setRegion (fin 7 d) true else s).onPower fun p => { p with haltedRegions := setBit p.haltedRegions d on }
  else
    (if on then s.startClusters [d - 8] else s).onPower fun p =>
      { p with haltedClusters := setBit p.haltedClusters (d - 8) on }

/-- A lagoon block written as it is given: data, CRC and poison bit (R423). -/
def State.rawBlock (s : State) (b : Nat) (data : List Byte) (crc : BitVec 16) (poison : Bool) : State :=
  let s1 := s.blockPut b data
  let diff := crc ^^^ BitVec.ofNat 16 (lagoonCrc data b)
  { s1 with mem := { s1.mem with
      crcBad := if diff = 0 then s1.mem.crcBad else
        (s1.mem.crcBad.filter fun x => decide (x.1 < b)) ++ [(b, diff)] ++
          (s1.mem.crcBad.filter fun x => decide (b < x.1)),
      poison := if poison then setInsert b s1.mem.poison else s1.mem.poison } }

/-- A lagoon block read as it stands, eight words, then poison bit and stored CRC (R423). -/
def State.tapBlock (s : State) (b : Nat) : State :=
  let data := s.blockData b
  let diff := match s.mem.crcBad.find? (·.1 == b) with
    | some x => x.2
    | none => 0
  let last := place (bit (s.poisoned b)) 16 1 + (BitVec.ofNat 16 (lagoonCrc data b) ^^^ diff).toNat
  (((List.range 8).map fun i => sub data (8 * i) 8) ++ [last]).foldl (fun s x => s.emit (.tdo (BitVec.ofNat 64 x))) s

/-- A segment insertion bit set or cleared; it stays closed where R429 says so. -/
def State.openSegment (s : State) (id : BitVec 3) (on : Bool) : State :=
  s.onVault fun v => { v with segments := setBit v.segments id.toNat (on && s.segmentOpens id) }

/-- 64 bits into an open remote segment: a TSB request on OSTR 255, numbered for each destination (log 28),
BUSY until it is done (R297, R429). -/
def State.segmentShift (s : State) (id : BitVec 3) (data : W64) : State :=
  if !s.vault.segments.getLsbD id.toNat ∨ s.vault.segBusy.getLsbD id.toNat then s
  else match s.routePort id.toNat with
    | none => s
    | some p =>
      let no := 255 + 256 * id.toNat
      let key := fun (y : Port × Nat × BitVec 12) => y.1 == p && y.2.1 == no
      let n := ((s.proto.ordSeq.find? key).map (·.2.2)).getD 0
      let rest := s.proto.ordSeq.filter fun y => !key y
      let s1 := { s with proto := { s.proto with ordSeq := rest ++ [(p, no, n + 1)] } }
      (s1.post { port := p, op := 8, atop := 0, addr := place id.toNat 52 3, len := 8, data := [], op0 := data,
                 op1 := 0, ostr := 255, oseq := n, use_ := .own }).onVault fun v =>
        { v with segBusy := setBit v.segBusy id.toNat true }

def execTapInstruction (i : TapInstr) (e : Env) (s : State) : Host.Outcome State Fault Refusal :=
  let level := s.sec.level.toNat
  let t := s.onVault fun v => { v with tap := (tapLevel i) }
  if level < (tapLevel i) then
    match i with
    | .scan | .mbist => if s.sec.keysLive then .next ((⟨s, e⟩ : W).ownAlarm 5).s else .next s
    | _ => .next s
  else match i with
    | .halt d => .next (t.haltDomain d true)
    | .release d => .next (t.haltDomain d false)
    | .lagoonWrite b data crc poison => .next (t.rawBlock b data crc poison)
    | .lagoonRead b => .next (t.tapBlock b)
    | .segment id on => .next (t.openSegment id on)
    | .shift id data => .next (t.segmentShift id data)
    | _ => .next t

/-- A unit of 64 bits comes back from an open segment (R429). -/
def execSegmentShiftUnit (id : BitVec 3) (out : W64) (s : State) : Host.Outcome State Fault Refusal :=
  if s.vault.segBusy.getLsbD id.toNat then
    .next ((s.emit (.tdo out)).onVault fun v => { v with segBusy := setBit v.segBusy id.toNat false })
  else .next s

end Sys2Proof.Machine
end

