-- ==== Sys2Proof/Machine/RegRead.lean ====
section
/-! DEFINITION. Control space as it reads: every register of R148, R183, R251, R252, R253, R290, R319, R352,
R374, R396, R433 and R449, by aligned slots of 8 bytes. Reserved fields and offsets read as 0 (R12, R221). -/

namespace Sys2Proof.Machine

/-- Two 32-bit registers side by side in a slot. -/
def two (lo hi : Nat) : Nat := place lo 0 32 + place hi 32 32

/-! ## Clusters (R148, R183, R251) -/

/-- A chunk's operands wait for staging (R118, R148). -/
def State.operandsWait (s : State) (k : Fin 64) (t : Tile) : Bool :=
  match s.atWork k with
  | none => false
  | some (me, c, _) => decide (t.k < t.geom.k) && [0, 1].any fun i =>
      (s.src me c (s.inst me.1 me.2).args k.1 2 i (t.geom.at t.k)).isNone

/-- What a promotion waits for: the tile queue or an output slot, or the chain inbox or outbox (R20, R122). -/
def State.promoWait (s : State) (k : Fin 64) (p : Promo) : Nat :=
  let y := s.clusters.get k
  match s.atWork k with
  | none => 3
  | some (_, c, q) =>
    if p.last && q.chainPos != 0 && (y.chainIn.row p.index p.row).isNone then 6
    else if !(p.last && p.row == 0) then 3
    else match nextPosition c q with
      | some next => if s.outboxHolds next then 6 else 3
      | none => if y.drainRoom c p then 3 else 5

/-- Chart and position of a bound cluster. -/
def State.boundTo (s : State) (k : Fin 64) : Option (Chart × Position) :=
  let y := s.clusters.get k
  match y.inst, y.pos with
  | some me, some q => (s.inst me.1 me.2).chart.map fun c => (c, q)
  | _, _ => none

/-- MX_STATE.DRAINING: a drain, or a chain send: rows promoted for the position that follows, or rows in the
outbox (R122, R148). -/
def State.draining (s : State) (k : Fin 64) : Bool :=
  let y := s.clusters.get k
  y.drain.isSome || (s.boundTo k).any fun x => (nextPosition x.1 x.2).any fun next =>
    y.promo.any (·.last) || s.outboxHolds next

/-- MX_STATE.STATE (R148). -/
def State.mxState (s : State) (k : Fin 64) : Nat :=
  let y := s.clusters.get k
  if y.inst.isNone then 0
  else if s.power.haltedClusters.getLsbD k.1 then 8
  else if !s.clusterOn k then 7
  else match y.tile, y.promo with
    | none, _ => 1
    | some t, none => if !t.full && s.operandsWait k t then 4 else 2
    | some t, some p => if t.full then s.promoWait k p else if s.operandsWait k t then 4 else 2

/-- A tile that will come to the chain is in the cluster: issued, in the array, or in the queue (R163). -/
def ClusterSt.tileComes (y : ClusterSt) : Bool :=
  !y.issued.isEmpty || y.tile.isSome || y.promo.isSome || y.drain.isSome || !y.queue.isEmpty

/-- VC_STATE.STATE (R183): a tile in the chain is in a pass, or between two; a tile still to come makes a bound
program wait (R163). Without a vector program the cluster is bound and idle (DESIGN CHOICE, log 130). -/
def State.vcState (s : State) (k : Fin 64) : Nat :=
  let y := s.clusters.get k
  if y.inst.isNone then 0
  else if s.power.haltedClusters.getLsbD k.1 then 5
  else if !s.clusterOn k then 4
  else if y.vc.isSome then 2
  else if testBit y.vcCfg.toNat 0 && y.tileComes then 3 else 1

/-- VL of the tile in the chain, whether or not the chain is clocked (R169). -/
def State.vcVl (s : State) (k : Fin 64) : Nat :=
  match (s.boundTo k).bind fun x => x.1.vprog, (s.clusters.get k).vc with
  | some v, some t => v.vl t.e.geom
  | _, _ => 0

/-- The contexts on engine `e` of cluster `k` (R237, R251). -/
def State.engineLoad (s : State) (k : Fin 64) (e : Nat) : List LoadedCtx :=
  (s.regions.get (clRegion k)).fy.onEngine (some k.1) e

/-- A context has a read to issue that the tags do not allow (R248). -/
def State.tagWait (s : State) (r : Region) (c : LoadedCtx) : Bool :=
  s.wantsRead c && (s.freeTag.isNone || !s.tagAllows r c)

/-- Contexts of blocks of engine `e` of cluster `k` that no room on the engine has taken yet (R237). -/
def State.engineTodo (s : State) (k : Fin 64) (e : Nat) : Bool :=
  (s.regions.get (clRegion k)).fy.staged.any fun x =>
    x.level != 0 && x.coords.headD 64 == k.1 && x.todo.any (·.1 == e)

/-- FY_CL_ENGe (R251). An engine with nothing loaded waits where a context of it still stands in a block's list:
its block's slot or its buffer is not ready (log 138). -/
def State.engineReg (s : State) (k : Fin 64) (e : Nat) : Nat :=
  let cs := s.engineLoad k e
  let st := if s.power.haltedClusters.getLsbD k.1 then 5
    else if !s.clusterOn k then 4
    else if cs.isEmpty then (if s.engineTodo k e then 3 else 0)
    else if cs.all (s.tagWait (clRegion k)) then 2 else 1
  place cs.length 24 4 + place st 20 4 + place ((s.clusters.get k).engPattern.toList.getD e 0).toNat 12 8

/-- A slot of a logical cluster's control block; an absent cluster reads as zero (R220). -/
def State.clusterSlot (s : State) (k : Fin 64) (o : Nat) : Nat :=
  let y := s.clusters.get k
  let idx := match y.tile with
    | some t => t.index
    | none => 2 ^ 64 - 1
  let ext := match y.tile with
    | some t => place t.geom.nv 8 8 + place t.geom.mv 0 8
    | none => 0
  let vci := match y.vc with
    | some t => t.e.index
    | none => 2 ^ 64 - 1
  let pass := match y.vc with
    | some t => t.pass
    | none => 0
  if !s.present (k.1 / 8) (k.1 % 8) then 0
  else match o with
    | 0x00 => two y.mode.toNat y.epi.toNat
    | 0x08 => two (place (bit (s.draining k)) 4 1 + s.mxState k) ext
    | 0x10 => two ((y.tile.map (·.geom.k)).getD 0) 0
    | 0x18 => idx
    | 0x20 => y.lastIndex.toNat
    | 0x28 => two y.tileStatus.toNat 0
    | 0x30 => y.passCc.toNat
    | 0x38 => y.waitCc.toNat
    | 0x40 => two y.vcCfg.toNat (place (s.vcVl k) 11 11 + place y.queueUsed 8 3 + place pass 4 4 + s.vcState k)
    | 0x48 => vci
    | 0x50 => y.vcLast.toNat
    | 0x58 => two y.vcStatus.toNat 0
    | 0x60 => y.vcPasses.toNat
    | 0x68 => y.vcBusy.toNat
    | 0x70 => y.vcWait.toNat
    | 0x80 => two (s.engineReg k 0) (s.engineReg k 1)
    | 0x88 => two (s.engineReg k 2) (s.engineReg k 3)
    | 0x90 => y.fyBytes.toNat
    | 0xA0 => y.shoalCe.toNat
    | 0xA8 => y.shoalUe.toNat
    | _ => 0

/-! ## Regions (R252, R374) -/

/-- CMD_RING_CFG and CMD_FLT_CFG. -/
def Ring.cfg (q : Ring) : Nat := place (bit q.en) 31 1 + place q.prio.toNat 8 2 + q.log2.toNat
def FaultRing.cfg (q : FaultRing) : Nat := place (bit q.en) 31 1 + q.log2.toNat

/-- CMD_RING_STATE.STATE (R374). -/
def State.ringState (s : State) (q : Ring) : Nat :=
  if !q.en then 0
  else if s.alarmed then 5
  else match q.hold with
    | some h => if recOp h.2 = 1 then 4 else 3
    | none => if q.head = q.tail then 1 else 2

/-- CMD_INST (R374). -/
def Inst.reg (i : Inst) : Nat :=
  place i.chartNo.toNat 32 12 + place i.ring.1 16 3 + place (bit i.displaced) 9 1 + place (bit i.stopPending) 8 1 +
    place i.reason.toNat 4 4 + i.st.code

/-- Region ferries that move data: those that hold contexts (R237, R252). -/
def RegFerry.busy (y : RegFerry) : Nat :=
  let fs := (y.loaded.filter (·.cluster.isNone)).map (·.engine)
  (List.range 8).foldl (fun n f => if fs.contains f then n + 2 ^ f else n) 0

/-- A slot of a region's ring registers (R374). -/
def State.ringSlot (s : State) (r : Region) (o : Nat) : Nat :=
  let q := s.ring r (fin 7 (o / 0x40))
  match o % 0x40 with
  | 0x00 => q.base.toNat
  | 0x08 => two q.cfg 0
  | 0x10 => two 0 q.tail.toNat
  | 0x18 => two q.head.toNat q.done.toNat
  | 0x20 => two (place q.rejects.toNat 16 16 + s.ringState q) 0
  | _ => 0

/-- A slot of a region's control block. -/
def State.regionSlot (s : State) (r : Region) (o : Nat) : Nat :=
  let x := s.regions.get r
  let y := x.fy
  if o < 0x200 then s.ringSlot r o
  else if 0x1000 ≤ o ∧ o < 0x2000 then memNat x.mbox (o - 0x1000) 8
  else if 0x2000 ≤ o ∧ o < 0x2800 then
    let c := x.counters.get (fin 127 ((o - 0x2000) / 16))
    if o % 16 = 0 then c.value.toNat else c.limit.toNat
  else if 0x3000 ≤ o ∧ o < 0x3100 then (x.insts.get (fin 255 ((o - 0x3000) / 8))).reg
  else match o with
    | 0x4000 => x.flt.base.toNat
    | 0x4008 => two x.flt.cfg x.flt.wr.toNat
    | 0x4010 => two x.flt.rd.toNat x.flt.lost.toNat
    | 0x4018 => place (bit x.flt.notifyEn) 63 1 + x.flt.notifyAddr.toNat
    | 0x8000 => two 0 (place y.queue.length 16 13 + place y.regionLoaded 8 8 + y.busy)
    | 0x8008 => two y.tagCap.toNat 0
    | 0x8010 => y.drops.toNat
    | 0x8018 => y.bytes.toNat
    | 0x8800 => two (place (bit y.scrubEn) 31 1 + y.scrubPeriod.toNat) 0
    | 0x8808 => y.reread.toNat
    | 0x8810 => y.poisonCnt.toNat
    | 0x8818 => match y.lastPoison with
        | some b => 2 ^ 63 + place b.toNat 6 24
        | none => 0
    | 0x8900 => two y.links.toNat 0
    | 0x8908 => y.sliceIn.toNat
    | 0x8910 => y.mcCopies.toNat
    | _ => 0

/-! ## Causeways and gate (R290, R319) -/

/-- CW_PORTp (R290). -/
def State.portReg (s : State) (p : Port) : Nat :=
  let on := (portBundles p).filter fun b => (s.bundle b).counted
  place (s.port p).state.toNat 24 4 + place (s.bundlesIn p 5).length 16 8 +
    place (on.filter fun b => !(s.bundle b).wide).length 8 8 + place (on.filter fun b => (s.bundle b).wide).length 0 8

/-- CW_BSTATE (R290). -/
def Bundle.reg (b : Bundle) : Nat :=
  place (bit b.mapdiff) 20 1 + place b.rx.mode.toNat 18 2 + place b.tx.mode.toNat 16 2 + place b.diags.toNat 8 8 +
    place (sparesUsed b.rx) 6 2 + place (sparesUsed b.tx) 4 2 + b.state.toNat

/-- CW_TXMAP and CW_RXMAP (R290). -/
def LaneMap.reg (m : LaneMap) : Nat :=
  place (spareLane m 1) 48 6 + place (spareLane m 0) 40 6 + place m.mode.toNat 34 2 + m.fail.toNat

/-- A slot of the CW_ registers. -/
def State.cwSlot (s : State) (o : Nat) : Nat :=
  if o = 0 then two s.link.replayTo.toNat 0
  else if 0x10 ≤ o ∧ o < 0x30 then
    let p := (o - 0x10) / 4
    two (s.portReg (fin 6 p)) (if p + 1 < 7 then s.portReg (fin 6 (p + 1)) else 0)
  else if 0x1000 ≤ o ∧ o < 0x1000 + 0x40 * 82 then
    let b := s.bundle (fin 81 ((o - 0x1000) / 0x40))
    match o % 0x40 with
    | 0x00 => two b.reg 0
    | 0x08 => b.tx.reg
    | 0x10 => b.rx.reg
    | 0x18 => b.crcErr.toNat
    | 0x20 => b.replay.toNat
    | 0x28 => b.flitsRx.toNat
    | _ => 0
  else 0

/-- HG_LAST_REFUSED as a word, and from one (R319). -/
def LastRefused.toNat (x : LastRefused) : Nat :=
  place (bit x.valid) 63 1 + place (bit x.dir) 62 1 + place (bit x.hit) 61 1 + place x.window.toNat 57 4 +
    place x.port.toNat 54 3 + x.addr.toNat
def LastRefused.ofNat (v : Nat) : LastRefused :=
  { valid := testBit v 63, dir := testBit v 62, hit := testBit v 61, window := BitVec.ofNat 4 (field v 57 4),
    port := BitVec.ofNat 3 (field v 54 3), addr := BitVec.ofNat 52 (field v 0 52) }

/-- HG_WCFG (R319). -/
def Window16.cfg (w : Window16) : Nat :=
  place w.type.toNat 30 2 + place (bit w.rd) 29 1 + place (bit w.wr) 28 1 + place (bit w.ord) 27 1 +
    place w.size.toNat 16 6

/-- A slot of the HG_ registers. -/
def State.hgSlot (s : State) (o : Nat) : Nat :=
  let x := s.proto
  if 0x100 ≤ o ∧ o < 0x170 then
    let p := fin 6 ((o - 0x100) / 16)
    if o % 16 = 0 then (x.pid.get p).toNat else two (x.pfeat.get p).toNat 0
  else if 0x1000 ≤ o ∧ o < 0x1000 + 0x200 * 7 then
    let w := s.window (fin 6 ((o - 0x1000) / 0x200)) (o % 0x200 / 0x20)
    match o % 0x20 with
    | 0x00 => two w.cfg 0
    | 0x08 => w.base.toNat
    | 0x10 => w.target.toNat
    | _ => 0
  else match o with
    | 0x00 => two x.fence.toNat 0
    | 0x08 => two x.pkgFeat.toNat 0
    | 0x10 => x.refused.toNat
    | 0x18 => x.lastRefused.toNat
    | 0x20 => x.timeouts.toNat
    | 0x28 => x.memReread.toNat
    | 0x30 => x.memCrcfail.toNat
    | 0x38 => x.memWfail.toNat
    | _ => 0

/-! ## Start-up, power, chiplet-wide (R253, R352, R396) -/

/-- PK_REGIONr (R26, R352). -/
def Sites.toNat (x : Sites) : Nat := place x.clusters.toNat 28 4 + place x.tested.toNat 18 9 + x.pass.toNat

/-- PK_ROLE (R352). -/
def Pk.role (p : Pk) : Nat :=
  place p.stepping.toNat 24 8 + place (bit p.grade) 12 1 + place (bit p.acting) 11 1 + place (bit p.yielded) 10 1 +
    place (bit p.lead) 8 2 + place p.strap.toNat 6 2 + place (bit p.idValid) 3 1 + p.id.toNat

/-- A slot of the PK_ registers; PK_REGIONr and PK_ISTH are written at step 15 (R341, R352). -/
def State.pkSlot (s : State) (o : Nat) : Nat :=
  let p := s.pk
  if 0x100 ≤ o ∧ o < 0x120 then
    let r := (o - 0x100) / 4
    if p.step.toNat < 15 then 0
    else two (s.site.regions.get (fin 7 r)).toNat (s.site.regions.get (fin 7 (r + 1))).toNat
  else match o with
    | 0x00 => two p.role (place (bit p.running) 31 1 + place (bit p.cold) 30 1 + p.step.toNat)
    | 0x08 => two p.halt.toNat (place (bit p.aoTrimmed) 7 1 + place (bit p.refclkOk) 6 1 +
        place (bit p.pllLock) 5 1 + p.upPort.toNat)
    | 0x10 => p.powerOn.toNat
    | 0x18 => two p.startTime.toNat 0
    | 0x20 => p.steps.toNat
    | 0x28 => p.imgBase.toNat
    | 0x30 => p.imageSeq.toNat
    | 0x120 => if p.step.toNat < 15 then 0 else two s.isthDiff (isthSpared s.site.bonds)
    | _ => 0

/-- PW_STATE.STATE (R396); Ebb has no code of its own and reads as entering Ebb. -/
def Power.code : Power → Nat
  | .flood => 0 | .slack => 1 | .enterEbb | .ebb | .off => 2 | .waking => 3

/-- PW_TEMP_s (R396). -/
def State.tempReg (s : State) (i : Nat) : Nat :=
  let t := s.ao.temps.get (fin 63 i)
  place (bit t.1) 31 1 + t.2.toNat

/-- Cluster domains clocked: none in forced Slack (R392, R396). -/
def PowerSt.clocked (p : PowerSt) : W64 := if p.forced then 0 else p.clustersOn

/-- A slot of the PW_ and AO_ registers. -/
def State.pwSlot (s : State) (o : Nat) : Nat :=
  let p := s.power
  let a := s.ao
  if 0x100 ≤ o ∧ o < 0x200 then two (s.tempReg ((o - 0x100) / 4)) (s.tempReg ((o - 0x100) / 4 + 1))
  else match o with
    | 0x00 => two (place p.slackDelay.toNat 16 8 + place p.clusterDelay.toNat 8 8)
        (place p.st.code 28 4 + place p.level.toNat 24 4 + place (bit p.forced) 23 1 + place (bit p.therm) 22 1 +
          place (bit p.ctOver) 21 1 + place (bit p.sensorFail) 20 1 + place p.regionsOn.toNat 8 8 +
          popCount 64 p.clocked.toNat)
    | 0x08 => two (place (bit p.safeOff) 29 1) (place p.ebbResult.toNat 28 4 + place p.ebbChip.toNat 16 3 +
        place p.ebbWhere.toNat 8 8 + p.wakes.toNat)
    | 0x10 => p.clocked.toNat
    | 0x18 => two (place a.tmaxCtSensor.toNat 27 5 + place a.tmaxBtSensor.toNat 22 5 + place a.tmaxCt.toNat 12 10 +
        a.tb.toNat) 0
    | 0x20 => p.forcedCnt.toNat
    | 0x800 => a.cc.toNat
    | 0x808 => place (bit a.timerEn) 63 1 + a.timer.toNat
    | 0x810 => two a.cause.toNat (place (bit s.pk.aoTrimmed) 16 1 + a.trim.toNat)
    | _ => 0

/-- A slot of the chiplet-wide SN_ and FY_ registers. -/
def State.snSlot (s : State) (o : Nat) : Nat :=
  let x := s.proto
  match o with
  | 0x00 => two (place x.stackWays.toNat 6 2 + x.stackGran.toNat) 0
  | 0x08 => x.stackSize.toNat
  | 0x10 => two x.defTags.toNat s.tagsHeld
  | 0x18 => two x.tagPeak.toNat 0
  | _ => 0

/-! ## Security and lifetime (R433, R449) -/

/-- LIFECYCLE (R408). -/
def State.lifecycle (s : State) : Nat := if s.alarmed then 2 else bit s.sec.owned

/-- SEC_STATUS (R433). -/
def State.secStatus (s : State) : Nat :=
  let x := s.sec
  place s.lifecycle 30 2 + place x.level.toNat 28 2 + place (bit x.keysLive) 27 1 + place (bit x.bindPending) 26 1 +
    place (bit x.bindBad) 25 1 + place (bit x.pkgAuth) 24 1 + place x.att.toNat 22 2 + place (bit x.erased) 21 1

/-- A slot of the SEC_ registers; in Ebb only SEC_STATUS and SEC_ALARM are read (R430). -/
def State.secSlot (s : State) (o : Nat) : Nat :=
  let x := s.sec
  let quarter := fun (v : BitVec 256) => field v.toNat (8 * (o % 32)) 64
  if !s.prodomRuns then (if o = 0 then two s.secStatus 0 else if o = 8 then two x.alarm.toNat 0 else 0)
  else if 0x40 ≤ o ∧ o < 0x60 then quarter x.devId
  else if 0x60 ≤ o ∧ o < 0x80 then quarter x.owner
  else if 0x80 ≤ o ∧ o < 0xA0 then quarter x.nonce
  else if 0xA0 ≤ o ∧ o < 0xC0 then quarter x.attNonce
  else match o with
    | 0x00 => two s.secStatus x.eraseMask.toNat
    | 0x08 => two x.alarm.toNat (place x.dbgResult.toNat 20 4)
    | 0x10 => two (place x.attResult.toNat 24 4) x.tokenFails.toNat
    | 0x18 => x.attDst.toNat
    | 0x20 => x.leaf.toNat
    | _ => 0

/-- A slot of the LT_ registers but the log window. -/
def State.ltSlot (s : State) (o : Nat) : Nat :=
  let x := s.life
  if 0x1000 ≤ o ∧ o < 0x4B60 then sub x.snap (o - 0x1000) 8
  else match o with
    | 0x00 => two (place (bit x.held) 31 1 + place (bit x.fresh) 30 1 + place (bit x.busy) 29 1 +
        place (bit x.logFail) 28 1 + place (bit x.snapValid) 27 1 + place x.lastReason.toNat 25 2 + x.flushes.toNat) 0
    | 0x08 => x.floodCc.toNat
    | 0x10 => let h := logHead x.log x.logSize; two h.2 h.1
    | 0x18 => two (place x.logWin.toNat 15 17) 0
    | _ => 0

/-! ## Control space (R220, R221) -/

/-- The 64 bits at an aligned slot of a control block. -/
def State.ctlSlot (s : State) (blk o : Nat) : Nat :=
  if blk < 64 then s.clusterSlot (fin 63 blk) o
  else if blk < 72 then s.regionSlot (fin 7 (blk - 64)) o
  else match blk with
    | 72 => s.cwSlot o
    | 73 => s.hgSlot o
    | 74 => s.pkSlot o
    | 75 => s.pwSlot o
    | 76 => s.secSlot o
    | 77 => s.ltSlot o
    | 78 => s.snSlot o
    | _ => 0

/-- A count with the halves that a read returns cleared (R13). -/
def clearHalves (v : W64) (lo hi : Bool) : W64 :=
  (if lo then 0 else v &&& 0xFFFFFFFF#64) ||| (if hi then 0 else v &&& 0xFFFFFFFF00000000#64)

/-- RC fields that a read of a slot's low or high half returns are cleared (R13). -/
def State.clearOnRead (s : State) (blk o : Nat) (lo hi : Bool) : State :=
  if 64 ≤ blk ∧ blk < 72 then
    let r := fin 7 (blk - 64)
    if o < 0x200 ∧ o % 0x40 = 0x20 ∧ lo then s.onRing r (fin 7 (o / 0x40)) fun q => { q with rejects := 0 }
    else if o = 0x4010 ∧ hi then s.onRegion r fun x => { x with flt := { x.flt with lost := 0 } }
    else if o = 0x8010 then s.onFerry r fun y => { y with drops := clearHalves y.drops lo hi }
    else s
  else if blk = 73 ∧ o = 0x18 then
    let v := clearHalves (BitVec.ofNat 64 s.proto.lastRefused.toNat) lo hi
    { s with proto := { s.proto with lastRefused := LastRefused.ofNat v.toNat } }
  else if blk = 75 ∧ o = 0x810 ∧ lo then { s with ao := { s.ao with cause := 0 } }
  else if blk = 78 ∧ o = 0x18 ∧ lo then { s with proto := { s.proto with tagPeak := 0 } }
  else s

/-- The log window is read on the lead, outside Ebb (R449). -/
def State.logOpen (s : State) : Bool := s.pk.lead && s.prodomRuns

/-- Bytes of LT_LOG_WIN; what lies beyond the log area is free (R449; log 153). -/
def W.logWindow (w : W) (off n : Nat) : W × List Byte :=
  let a := w.s.life.logWin.toNat * 0x8000 + (off - 0x8000)
  if a + n ≤ w.s.life.logSize then (w, logRead w.s.life.log a n)
  else (w.on fun s => { s with freeCtr := s.freeCtr + n },
    (List.range n).map fun i => Config.freeByte (w.s.freeCtr + i))

/-- A read of 4 or 8 bytes at an aligned offset of control space (R13, R220, R221, R449). An access to the
control block of a stopped cluster lets it join those that start (R377), one to a stopped region's starts it (R379). -/
def W.ctlRead (w : W) (blk off n : Nat) : W × List Byte :=
  let o := off / 8 * 8
  let lo := off % 8 == 0
  let hi := n == 8 || off % 8 == 4
  if blk = 77 ∧ 0x8000 ≤ off then
    if w.s.logOpen then w.logWindow off n
    else (w, List.replicate n 0)
  else
    let v := field (w.s.ctlSlot blk o) (if lo then 0 else 32) (8 * n)
    let wake := fun (s : State) =>
      if blk < 64 then (if s.present (blk / 8) (blk % 8) then s.wakeCluster blk else s)
      else if blk < 72 then s.wakeRegion (fin 7 (blk - 64)) else s
    (w.on fun s => wake (s.clearOnRead blk o lo hi), natToBytes n v)

end Sys2Proof.Machine
end

