-- ==== Sys2Proof/Machine/Rings.lean ====
section
/-! DEFINITION. Rings, records, instances and fault rings: the commands of 11_commands_and_faults. -/

namespace Sys2Proof.Machine

/-! ## Ring registers (R354, R355) -/

/-- A write of CMD_RING_DOORBELL; a stopped region's clock starts (R355, R379). -/
def W.doorbell (w0 : W) (r : Region) (i : RingNo) (v : W32) : W :=
  let w := w0.on (·.wakeRegion r)
  let q := w.s.ring r i
  if q.en && decide ((v - q.tail).toNat + (q.tail - q.done).toNat ≤ ringSize q.log2) then
    w.on (·.onRing r i fun y => { y with tail := v })
  else
    let w1 := w.on (·.onRing r i fun y => { y with rejects := sat16 y.rejects 1 })
    w1.fault r
      { source := 0xA, cause := if q.en then 1 else 2, region := r.1, tile := v.toNat, detail := i.1 }

def execCmdRingDoorbell (r : Region) (i : RingNo) (v : W32) (e : Env) (s : State) :
    Host.Outcome State Fault Refusal :=
  .next ((⟨s, e⟩ : W).doorbell r i v).s

/-- A ring's set-up written (R354, R357): counts start at 0 when EN rises; while EN is 1 only EN can
change. -/
def Ring.configure (q : Ring) (v : W32) : Ring :=
  let en := v.getLsbD 31
  if q.en then { q with en := en }
  else
    let prio := BitVec.ofNat 2 (field v.toNat 8 2)
    let log2 := BitVec.ofNat 5 (field v.toNat 0 5)
    if en then { q with en := true, prio := prio, log2 := log2, tail := 0, head := 0, done := 0, era := q.era + 1 }
    else { q with prio := prio, log2 := log2 }

/-- A write of CMD_RING_CFG; rings exist only once start-up is done (R341, R354). -/
def State.ringCfg (s : State) (r : Region) (i : RingNo) (v : W32) : State :=
  if s.pk.running then s.onRing r i fun q => q.configure v else s

def execCmdRingCfg (r : Region) (i : RingNo) (v : W32) (s : State) : Host.Outcome State Fault Refusal :=
  .next ((s.wakeRegion r).ringCfg r i v)

/-! ## Issuing (R356, R358, R475) -/

/-- A ring has a record to issue (R356, R363). -/
def Ring.ready (q : Ring) : Bool := q.en && q.head != q.tail && q.hold.isNone

/-- The first ring of a PRIO that is ready, after the one of that PRIO served last (R356; log 143). -/
def RegionSt.turnOf (x : RegionSt) (prio : Nat) : Option RingNo :=
  ((List.range 8).map fun n => fin 7 ((x.turn.get (fin 3 prio)).1 + 1 + n)).find? fun i =>
    (x.rings.get i).ready && (x.rings.get i).prio.toNat == prio

/-- The ring served next: highest PRIO, rings of equal PRIO in turn (R356). -/
def RegionSt.nextRing (x : RegionSt) : Option RingNo := [3, 2, 1, 0].findSome? x.turnOf

/-- The controller of region `r` may issue (R356, R367, R386, R392, R423). -/
def State.mayIssue (s : State) (r : Region) : Bool :=
  s.pk.running && s.regionActs r && !s.power.offPending && s.power.runs && (s.regions.get r).current.isNone

/-- A record of a BIND names a chart that the image does not hold (R359). -/
def State.noChart (s : State) (bs : List Byte) : Bool :=
  recOp bs == 1 && recField bs 16 1 == 0 && (imgChart s.site.image (recField bs 64 12)).isNone

/-- A record taken from its ring: HEAD, the open list, the trace and the turn move (R354, R423). -/
def State.takeRecord (s : State) (r : Region) (f : RecRef) (bs : List Byte) : State :=
  s.onRegion r fun x =>
    { x with
      rings := vmod x.rings f.ring fun q =>
        { q with head := q.head + 1, opened := q.opened ++ [(⟨f.n, f.era, false⟩ : OpenRec)] },
      turn := x.turn.set ((x.rings.get f.ring).prio.toNat % 4) f.ring (Nat.mod_lt _ (by decide)),
      trace := (x.trace ++ [(⟨f, bs, 0⟩ : TraceRec)]).drop (x.trace.length + 1 - 256) }

def execRecordIssue (r : Region) (e : Env) (s : State) : Host.Outcome State Fault Refusal :=
  match (if s.mayIssue r then (s.regions.get r).nextRing else none) with
  | none => .next s
  | some i =>
    let q := s.ring r i
    let f : RecRef := ⟨i, q.head, q.era, ringAddr q q.head⟩
    let x := (⟨s, e⟩ : W).read (s.unit r) f.addr 64
    let w := x.1.on fun s => s.takeRecord r f x.2.2
    if x.2.1 ≠ .ok then
      .next ((w.commandFault r 2 x.2.1 i f.addr 0x7FF).retire r f (statusWord codeMem 0 0 0)).s
    else if recBad x.2.2 || s.noChart x.2.2 then
      let i := s.inst r (recInst x.2.2)
      let named := decide (1 ≤ recOp x.2.2) && decide (recOp x.2.2 ≤ 4)
      .next (w.retire r f (statusWord codeBad (if named then i.st.code else 0)
        (if named then i.reason.toNat else 0) 0)).s
    else .next (w.on fun s => s.onRegion r fun y => { y with current := some ⟨f, x.2.2⟩ }).s

/-- The record being issued, when its OP is `op` and the controller acts; taken out of the controller (R363,
R392). -/
def State.takeCurrent (s : State) (r : Region) (op : Nat) : Option (Current × State) :=
  match (s.regions.get r).current with
  | some c => if recOp c.bytes = op ∧ s.regionActs r then
      some (c, s.onRegion r fun y => { y with current := none }) else none
  | none => none

/-- A record that names no instance retires with STATE and REASON 0 (R362). -/
def W.retirePlain (w : W) (r : Region) (f : RecRef) (code : Nat) : W := w.retire r f (statusWord code 0 0 0)

def execNop (r : Region) (e : Env) (s : State) : Host.Outcome State Fault Refusal :=
  match s.takeCurrent r 0 with
  | none => .next s
  | some (c, t) => .next ((⟨t, e⟩ : W).retirePlain r c.ref codeOk).s

/-! ## Instances of other chiplets with positions here (R185, R188, R206; log 142) -/

/-- Where this chiplet keeps the instance that a controller elsewhere names. -/
def State.farSlot (s : State) (f : Far) : SlotNo :=
  fin 255 (32 * ((f.chip.toNat + 8 - s.pk.id.toNat) % 8) + f.slot.1)

/-- The counters held here that a START or RESUME elsewhere sets (R206, R372). -/
def State.farCounters (s : State) (f : Far) : State :=
  f.counters.foldl (fun s x => (s.putCounter x.1 x.2.1 x.2.2).wakeRegion (fin 7 (x.1 / 128))) s

/-! ## BIND (R361, R364-R366) -/

/-- A chart bound to an instance: its clusters are given, and the instance is Bound (R185, R361). -/
def State.bindTo (s : State) (r : Region) (k : SlotNo) (c : Chart) (no : BitVec 12) (args : List Byte) (kept : List Nat)
    (recBase statAddr : Addr) : State :=
  (s.onInst r k fun i =>
    { Inst.reset with
      st := .bound, chartNo := no, chart := some c, args := args, ring := i.ring, recBase := recBase,
      statAddr := statAddr, groups := kept.map fun g => Group.fresh g [] }).takeClusters r k c kept

/-- A BIND record retires. An instance that entered Bound writes its status record first; when that write fails
the BIND retires MEM_FAULT (R362, R370, R475; log 146). -/
def W.retireBind (w : W) (r : Region) (k : SlotNo) (f : RecRef) : W :=
  let i := w.s.inst r k
  if i.statAddr = 0 then w.retireInst r k f codeOk 0
  else
    let x := w.write (w.s.unit r) i.statAddr.toNat (instRecord i)
    if x.2 = .ok then x.1.retireInst r k f codeOk 0
    else (x.1.commandFault r 4 x.2 f.ring i.statAddr.toNat (w.s.instName r k)).retireInst r k f codeMem 0

/-- The checks of BIND and, when all pass, its effect; `preempted` when PREEMPT has done its part. -/
def W.bindRecord (w : W) (r : Region) (f : RecRef) (bs : List Byte) (preempted : Bool) : W :=
  let k := recInst bs
  let argAddr := recField bs 128 56
  match imgChart w.s.site.image (recField bs 64 12) with
  | none => w.retireInst r k f codeBad 0
  | some c =>
    if (w.s.inst r k).st ≠ .idle then w.retireInst r k f codeNotNow 0
    else
      let x := w.absentPositions c.positions
      match placement x.1.s c x.2 with
      | none => x.1.retireInst r k f codeUnplaced 0
      | some kept =>
        let xs := x.1.s.conflicts (r, k) c kept
        if !xs.isEmpty ∨ w.env.away.isSome then
          if recField bs 17 1 = 1 ∧ !preempted ∧ x.1.s.mayPreempt (x.1.s.ring r f.ring).prio xs w.env.away then
            (x.1.on fun s => xs.foldl (fun s y =>
              if ownSlot y.2 then s.stopInst y.1 y.2 none else s.tell y.1 y.2 .stop) s).on fun s =>
              s.onRing r f.ring fun q => { q with hold := some (f, bs), waits := xs }
          else x.1.retireInst r k f codeNotNow 0
        else
          let y := x.1.read (x.1.s.unit r) argAddr 576
          if y.2.1 ≠ .ok then
            (y.1.commandFault r 1 y.2.1 f.ring argAddr (w.s.instName r k)).retireInst r k f codeMem 0
          else
            let w1 := y.1.on fun s =>
              (s.bindTo r k c (BitVec.ofNat 12 (recField bs 64 12)) y.2.2 kept (BitVec.ofNat 56 (recField bs 192 56))
                (BitVec.ofNat 56 (recField bs 256 56))).tell r k .bind
            w1.retireBind r k f

/-- A BIND of another chiplet's controller gives its instance the clusters of its positions here, unless one is
bound already (R19, R185). -/
def State.farBind (s : State) (r : Region) (f : Far) : State :=
  let k := s.farSlot f
  match imgChart s.site.image f.chartNo.toNat with
  | none => s
  | some c =>
    if ownSlot k ∨ (s.inst r k).st ≠ .idle ∨ !(s.conflicts (r, k) c f.groups).isEmpty then s
    else s.bindTo r k c f.chartNo f.args (f.groups.filter (s.groupHere c)) f.recBase 0

def execBind (r : Region) (from_ : Option Far) (e : Env) (s : State) : Host.Outcome State Fault Refusal :=
  match from_, s.takeCurrent r 1 with
  | some f, _ => .next (s.farBind r f)
  | none, none => .next s
  | none, some (c, t) =>
    if recField c.bytes 16 1 = 1 then .next s
    else .next ((⟨t, e⟩ : W).bindRecord r c.ref c.bytes false).s

/-- An instance released: clusters, areas and staging go, and it is Idle; CMD_INST keeps the ring that last
issued START or RESUME (R361, R374). -/
def State.releaseInst (s : State) (r : Region) (k : SlotNo) : State :=
  (((s.tell r k .release).releaseClusters r k).dropStaging r k).onInst r k fun i => { Inst.reset with ring := i.ring }

def execBindRelease (r : Region) (from_ : Option Far) (e : Env) (s : State) : Host.Outcome State Fault Refusal :=
  let rests := fun (st : InstState) => st == .bound || st == .stopped || st == .faulted
  match from_, s.takeCurrent r 1 with
  | some f, _ =>
    let k := s.farSlot f
    if !ownSlot k && rests (s.inst r k).st then .next (((s.releaseClusters r k).dropStaging r k).onInst r k fun _ => Inst.reset)
    else .next s
  | none, none => .next s
  | none, some (c, t) =>
    if recField c.bytes 16 1 = 0 then .next s
    else
      let k := recInst c.bytes
      if rests (t.inst r k).st then .next ((⟨t.releaseInst r k, e⟩ : W).retireInst r k c.ref codeOk 0).s
      else .next ((⟨t, e⟩ : W).retireInst r k c.ref codeNotNow 0).s

/-! ## START and RESUME (R195, R200, R206, R361, R365, R372) -/

/-- Clusters and areas of a displaced instance on this chiplet taken back (R365). -/
def State.retake (s : State) (r : Region) (k : SlotNo) (c : Chart) : State :=
  if (s.inst r k).displaced then
    (s.onInst r k fun y => { y with displaced := false }).takeClusters r k c ((s.inst r k).groups.map (·.g))
  else s

/-- A START or RESUME may run: the instance lost no chiplet or port, and where it is displaced no conflict of R19
or R202 stands in the way, here or, by `away`, elsewhere (R365). -/
def State.mayRun (s : State) (r : Region) (k : SlotNo) (c : Chart) (away : Option Bool) : Bool :=
  let i := s.inst r k
  i.reason != 6 && (!i.displaced || ((s.conflicts (r, k) c (i.groups.map (·.g))).isEmpty && away.isNone))

/-- An instance begins a run for record `f` (R361, R370). -/
def Inst.begin (i : Inst) (f : Option RecRef) (groups : List Group) : Inst :=
  { i with st := .running, reason := 0, faulting := 0, ring := f.elim i.ring (·.ring), startRec := f, stopRec := none,
           stopPending := false, tiles := 0, faults := 0, firstTile := none, redo := [], incomplete := false,
           groups := groups }

/-- A START that fails: START_FAIL record, Faulted with REASON 0x5, START retires FAULTED (R195, R200,
R361, R369). -/
def W.startFail (w : W) (r : Region) (k : SlotNo) (f : RecRef) (cause detail : Nat) : W :=
  let name := w.s.instName r k
  let w1 := w.on fun s => s.onInst r k fun i => i.begin (some f) (i.groups.map fun g => Group.fresh g.g [])
  (w1.fault r { source := 0xC, cause := cause, region := r.1, inst := name, detail := detail }).enter r k
    .faulted 5

/-- The 8 bytes that a FETCH bound names: a register of this chiplet's control space where it is aligned, or
memory (R194, R220, R221). -/
def W.fetch8 (w : W) (r : Region) (a : Nat) : W × Status × Nat :=
  match w.s.locateN a 8 with
  | .control blk off =>
    if off % 8 = 0 then
      let x := w.ctlRead blk off 8
      (x.1, .ok, bytesToNat x.2)
    else w.readNat (w.s.unit r) a 8
  | _ => w.readNat (w.s.unit r) a 8

/-- The bounds of a START in ascending order: values, or the number of the FETCH that failed (R195). -/
def W.fetchBounds (w : W) (r : Region) (args : List Byte) : List BoundEntry → Nat → W × (List Nat ⊕ Nat)
  | [], _ => (w, .inl [])
  | b :: bs, i =>
    let next := fun (w : W) (v : Nat) =>
      let y := w.fetchBounds r args bs (i + 1)
      (y.1, match y.2 with
        | .inl vs => Sum.inl (clampBound i v :: vs)
        | .inr n => Sum.inr n)
    match b.src with
    | 1 => next w (sub args (8 * i) 8)
    | 2 =>
      let x := w.fetch8 r b.addr
      if x.2.1 = .ok then next x.1 x.2.2 else (x.1, .inr i)
    | _ => next w b.value

/-- START of an instance whose clusters are held. Its staging begins anew (R195, R200, R211). -/
def W.startRun (w : W) (r : Region) (k : SlotNo) (f : RecRef) (c : Chart) : W :=
  let i := w.s.inst r k
  let x := w.fetchBounds r i.args c.bounds 0
  match x.2 with
  | .inr n => x.1.startFail r k f 1 n
  | .inl bs =>
    if 2 ^ 63 ≤ tileCount c bs then x.1.startFail r k f 2 0
    else match slotFault c bs with
      | some l => x.1.startFail r k f 3 l
      | none =>
        let ranges := c.counters.map (ctrRange c bs)
        x.1.on fun s =>
          ((((s.dropStaging r k).setCounters c ranges).onInst r k fun i =>
            { i.begin (some f) (i.groups.map fun g => Group.fresh g.g []) with bounds := bs, ranges := ranges }
          ).wakeClusters r k).tell r k .start

/-- A START elsewhere begins the run of an instance's positions here, and sets the counters held here (R206). -/
def State.farStart (s : State) (r : Region) (f : Far) : State :=
  let k := s.farSlot f
  let s1 := s.farCounters f
  match (s1.inst r k).st, (s1.inst r k).chart with
  | .bound, some c | .stopped, some c | .faulted, some c =>
    if ownSlot k then s
    else (((s1.retake r k c).dropStaging r k).onInst r k fun i =>
      { i.begin none (i.groups.map fun g => Group.fresh g.g []) with bounds := f.bounds }).wakeClusters r k
  | _, _ => s1

def execStart (r : Region) (from_ : Option Far) (e : Env) (s : State) : Host.Outcome State Fault Refusal :=
  match from_, s.takeCurrent r 2 with
  | some f, _ => .next (s.farStart r f)
  | none, none => .next s
  | none, some (cur, t) =>
    let k := recInst cur.bytes
    let no := .next ((⟨t, e⟩ : W).retireInst r k cur.ref codeNotNow 0).s
    match (t.inst r k).st, (t.inst r k).chart with
    | .bound, some c | .stopped, some c | .faulted, some c =>
      if t.mayRun r k c e.away then .next ((⟨t.retake r k c, e⟩ : W).startRun r k cur.ref c).s else no
    | _, _ => no

/-- A STOP record, or the stop that a BIND with PREEMPT elsewhere, or the owner of an instance with positions
here, asks for (R361, R366). -/
def execStop (r : Region) (from_ : Option Far) (e : Env) (s : State) : Host.Outcome State Fault Refusal :=
  match from_, s.takeCurrent r 3 with
  | some f, _ => .next (s.stopInst r (s.farSlot f) none)
  | none, none => .next s
  | none, some (c, t) =>
    let k := recInst c.bytes
    let i := t.inst r k
    if i.st = .running ∨ (i.st = .draining ∧ !i.stopPending) then
      .next (t.stopInst r k (some c.ref))
    else .next ((⟨t, e⟩ : W).retireInst r k c.ref codeNotNow 0).s

/-- The counters of a RESUME with FROM_EN = 1 (R372). -/
def resumeRanges (ranges : List (Nat × Nat)) (from_ : Nat) : List (Nat × Nat) :=
  ranges.map fun x => (min (max from_ x.1) x.2, x.2)

/-- RESUME of an instance whose clusters are held: with FROM_EN its counters are set, without it each group
led here computes its redo entries first (R372). -/
def State.resumeRun (s : State) (r : Region) (k : SlotNo) (c : Chart) (f : RecRef) (fromEn : Bool) (from_ : Nat) : State :=
  let s1 := if fromEn then s.setCounters c (resumeRanges (s.inst r k).ranges from_) else s
  ((s1.onInst r k fun i =>
    i.begin (some f) (i.groups.map fun g => Group.fresh g.g (if fromEn || !s.leads c g.g then [] else g.lost))
    ).wakeClusters r k).tell r k .resume

/-- A RESUME elsewhere continues an instance's positions here (R372). -/
def State.farResume (s : State) (r : Region) (f : Far) : State :=
  let k := s.farSlot f
  let s1 := s.farCounters f
  let redo := fun g => ((f.redo.find? (·.1 == g)).map (·.2)).getD []
  match (s1.inst r k).st, (s1.inst r k).chart with
  | .stopped, some c | .faulted, some c =>
    if ownSlot k then s
    else ((s1.retake r k c).onInst r k fun i =>
      i.begin none (i.groups.map fun g => Group.fresh g.g (redo g.g))).wakeClusters r k
  | _, _ => s1

def execResume (r : Region) (from_ : Option Far) (e : Env) (s : State) : Host.Outcome State Fault Refusal :=
  match from_, s.takeCurrent r 4 with
  | some f, _ => .next (s.farResume r f)
  | none, none => .next s
  | none, some (cur, t) =>
    let k := recInst cur.bytes
    let no := .next ((⟨t, e⟩ : W).retireInst r k cur.ref codeNotNow 0).s
    match (t.inst r k).st, (t.inst r k).chart with
    | .stopped, some c | .faulted, some c =>
      if t.mayRun r k c e.away then
        .next ((t.retake r k c).resumeRun r k c cur.ref (recField cur.bytes 16 1 == 1) (recField cur.bytes 64 64))
      else no
    | _, _ => no

def execResetCounter (r : Region) (e : Env) (s : State) : Host.Outcome State Fault Refusal :=
  match s.takeCurrent r 5 with
  | none => .next s
  | some (c, t) =>
    let t1 := t.onRegion r fun y =>
      { y with counters := vmod y.counters (fin 127 (recField c.bytes 64 7)) fun _ =>
          ⟨BitVec.ofNat 64 (recField c.bytes 128 64), BitVec.ofNat 64 (recField c.bytes 192 64)⟩ }
    .next ((⟨t1, e⟩ : W).retirePlain r c.ref codeOk).s

/-! ## FENCE, WRITE_FLAG, SIGNAL (R363) -/

/-- A record that issues and holds its ring (R363). -/
def State.holdRing (s : State) (r : Region) (c : Current) : State :=
  s.onRing r c.ref.ring fun q => { q with hold := some (c.ref, c.bytes) }

def execFence (r : Region) (s : State) : Host.Outcome State Fault Refusal :=
  match s.takeCurrent r 6 with
  | none => .next s
  | some (c, t) => .next (t.holdRing r c)

def execWriteFlag (r : Region) (s : State) : Host.Outcome State Fault Refusal :=
  match s.takeCurrent r 7 with
  | none => .next s
  | some (c, t) => .next (t.holdRing r c)

def execSignal (r : Region) (s : State) : Host.Outcome State Fault Refusal :=
  match s.takeCurrent r 8 with
  | none => .next s
  | some (c, t) => .next (t.holdRing r c)

/-- The wait of R363: every earlier record of the ring has retired, and for FENCE the instances rest. -/
def State.holdOver (s : State) (r : Region) (i : RingNo) (f : RecRef) (bs : List Byte) : Bool :=
  let rest := fun st : InstState => st != .running && st != .draining
  ((s.ring r i).opened.all fun o => o.retired || (o.n == f.n && o.era == f.era)) &&
    (recOp bs != 6 || (List.range 32).all fun k =>
      !testBit (recField bs 64 32) k || rest (s.inst r (fin 255 k)).st)

/-! ## Ends of runs (R361, R366, R370, R371) -/

/-- Nothing of an instance's run is left on this chiplet (R361). -/
def State.instQuiet (s : State) (r : Region) (k : SlotNo) : Bool :=
  (s.boundClusters r k).all (fun c => (s.clusters.get c).quiet) &&
    (s.inst r k).groups.all (fun g => g.inPass.isNone && g.wb.isEmpty) &&
    !(s.regions.toList.any fun y => y.fy.loaded.any fun c => c.inst == some (r, k) && c.tile.isSome)

/-- Positions of an instance lie on other chiplets: its end waits for their report (R361). -/
def State.splitInst (s : State) (k : SlotNo) (c : Chart) : Bool :=
  ownSlot k && c.positions.any fun p => p.chiplet != s.pk.id.toNat

/-- What other chiplets report of an instance's run joined to it. A tile of a group led here that counts as
written and whose write-back failed elsewhere is taken out again (R362, R370, R371). -/
def Inst.join (i : Inst) (led : Nat → Bool) (f : FarEnd) : Inst :=
  let twice := (f.owed.filter fun x => led x.1 && i.groups.any fun g => g.g == x.1 && !g.owed.contains x.2).length
  { i with
    tiles := i.tiles + BitVec.ofNat 64 f.tiles - BitVec.ofNat 64 twice, faults := i.faults + BitVec.ofNat 32 f.faults,
    firstTile := match i.firstTile, f.first with
      | some x, some y => some (min x y)
      | some x, none => some x
      | none, y => y,
    groups := i.groups.map fun g =>
      { g with lost := (f.owed.filter (·.1 == g.g)).foldl (fun l x => setInsert x.2 l) g.lost } }

/-- An instance of another chiplet comes to rest here, and its owner hears of it (R147, R361, R371). -/
def State.farRest (s : State) (r : Region) (k : SlotNo) (st : InstState) (reason : BitVec 4) : State :=
  let i := s.inst r k
  let s1 := (s.restStaging r k).onInst r k fun i =>
    { i with st := st, reason := reason, faulting := 0, stopPending := false }
  s1.emit (.toPkg (.rested (s.instName r k)
    ⟨i.tiles.toNat, i.faults.toNat, i.firstTile, i.groups.flatMap fun g => g.owed.map fun t => (g.g, t)⟩))

/-- No group of an instance still has an index to compute. -/
def Inst.settled (i : Inst) : Bool := i.groups.all fun g => g.ahead.isNone && g.redo.isEmpty

/-- The end of a run without a fault. `far` is what the other chiplets of the instance's positions report once
all their groups have drawn the sentinel, or stopped, and their positions rest; until then an instance
with positions elsewhere does not end (R361; log 142). -/
def execInstanceDrained (r : Region) (slot : SlotNo) (far : Option FarEnd) (e : Env) (s : State) :
    Host.Outcome State Fault Refusal :=
  let i := s.inst r slot
  match i.chart with
  | none => .next s
  | some c =>
    let split := s.splitInst slot c
    let ended := i.st == .draining || i.st == .running && s.groupsDone c i && (far.isSome || !ownSlot slot)
    let ready := ended && i.faulting == 0 && s.instQuiet r slot && i.settled && (!split || far.isSome) &&
      !s.alarmed && (!ownSlot slot || s.regionActs r)
    let st : InstState := if i.stopPending then .stopped else .bound
    let reason : BitVec 4 := if i.stopPending then 2 else 1
    if !ready then .next s
    else if !ownSlot slot then .next (s.farRest r slot st reason)
    else
      let s1 := if split then s.onInst r slot fun i => far.elim i fun f => i.join (s.leads c) f else s
      .next ((⟨s1, e⟩ : W).enter r slot st reason).s

/-- The end of a run with a fault. `met` is the REASON of a fault that another chiplet met, 0 for none (R369);
`lost` says that one of the instance's chiplets is lost, so that its entries cannot be known (R371). -/
def execInstanceFaulted (r : Region) (slot : SlotNo) (met : BitVec 4) (far : Option FarEnd) (lost : Bool) (e : Env)
    (s0 : State) : Host.Outcome State Fault Refusal :=
  let s := if met = 0 then s0 else s0.faultInst r slot met
  let i := s.inst r slot
  match i.chart with
  | none => .next s
  | some c =>
    let split := s.splitInst slot c
    if !((i.st = .running ∨ i.st = .draining) ∧ i.faulting ≠ 0 ∧ (!split ∨ far.isSome ∨ lost) ∧ s.instQuiet r slot ∧
        !s.alarmed ∧ (!ownSlot slot ∨ s.regionActs r)) then .next s
    else
      let s1 := (s.boundClusters r slot).foldl (fun s k => s.onCluster k fun y =>
        { y with issued := [], chainIn := ChainBuf.empty, fault := none }) s
      let reason := if lost && split then 6 else i.faulting
      if !ownSlot slot then .next (s1.farRest r slot .faulted reason)
      else
        let s2 := if split then s1.onInst r slot fun i => far.elim i fun f => i.join (s.leads c) f else s1
        let s3 := s2.onInst r slot fun y =>
          let gs := sortGroups y.groups
          { y with
            redo := gs.flatMap Group.owed, incomplete := lost && split,
            groups := gs.map fun g => { g with lost := g.owed, ahead := none, redo := [] } }
        .next ((⟨s3, e⟩ : W).enter r slot .faulted reason).s

/-- An instance displaced: its clusters, areas and staging are released; a Stopped one takes REASON 0x3. The
owner of an instance of another chiplet is told (R366). -/
def State.displace (s : State) (r : Region) (k : SlotNo) : State :=
  ((s.releaseClusters r k).dropStaging r k).onInst r k fun i =>
    { i with displaced := true, reason := if i.st = .stopped then 3 else i.reason }

/-- An instance stands in Stopped or Faulted. -/
def Inst.stands (i : Inst) : Bool := i.st == .stopped || i.st == .faulted

/-- A region's rings that a PREEMPT BIND holds, with the instances that it stopped (R366). -/
def RegionSt.preemptHolds (x : RegionSt) : List (RingNo × RecRef × List Byte × List (Region × SlotNo)) :=
  ((List.range 8).map (fin 7)).filterMap fun i =>
    match (x.rings.get i).hold with
    | some h => if recOp h.2 = 1 then some (i, h.1, h.2, (x.rings.get i).waits) else none
    | none => none

/-- The instances that a PREEMPT BIND stopped have come to rest: they are displaced, and the BIND makes its
checks (R366). The first ring whose instances all rest is served. With `named`, a BIND elsewhere displaces
an instance that has come to rest. -/
def execPreemptDisplace (r : Region) (named : Option Far) (e : Env) (s : State) : Host.Outcome State Fault Refusal :=
  let rests := fun (y : Region × SlotNo) => (s.inst y.1 y.2).st != .running && (s.inst y.1 y.2).st != .draining
  match named with
  | some f =>
    let k := s.farSlot f
    if (s.inst r k).stands ∧ !s.alarmed then
      .next ((if ownSlot k then s.tell r k .displace else s).displace r k)
    else .next s
  | none =>
    match (s.regions.get r).preemptHolds.find? fun x => x.2.2.2.all rests with
    | none => .next s
    | some (i, f, bs, xs) =>
      if !s.regionActs r ∨ e.away = some true then .next s
      else
        let s1 := (xs.filter fun y => (s.inst y.1 y.2).stands).foldl (fun s y =>
          (s.tell y.1 y.2 .displace).displace y.1 y.2) s
        let s2 := s1.onRing r i fun q => { q with hold := none, waits := [] }
        .next ((⟨s2, e⟩ : W).bindRecord r f bs true).s

/-! ## Fault ring and mailbox registers (R368, R374) -/

/-- A write of CMD_FLT_CFG (R368). -/
def FaultRing.configure (q : FaultRing) (v : W32) : FaultRing :=
  let en := v.getLsbD 31
  if q.en then { q with en := en }
  else if en then { q with en := true, log2 := BitVec.ofNat 5 (field v.toNat 0 5), wr := 0, rd := 0 }
  else { q with log2 := BitVec.ofNat 5 (field v.toNat 0 5) }

def execCmdFltCfg (r : Region) (v : W32) (s : State) : Host.Outcome State Fault Refusal :=
  .next ((s.wakeRegion r).onRegion r fun x => { x with flt := x.flt.configure v })

/-- A write of CMD_FLT_RD (R368). -/
def FaultRing.consume (q : FaultRing) (v : W32) : FaultRing :=
  if (v - q.rd).toNat ≤ (q.wr - q.rd).toNat then { q with rd := v } else q

def execCmdFltRd (r : Region) (v : W32) (s : State) : Host.Outcome State Fault Refusal :=
  .next ((s.wakeRegion r).onRegion r fun x => { x with flt := x.flt.consume v })

def execCmdMboxBell (r : Region) (v : W64) (s : State) : Host.Outcome State Fault Refusal :=
  .next ((s.wakeRegion r).onRegion r fun x => { x with events := x.events ++ [v] })

end Sys2Proof.Machine
end

