-- ==== Sys2Proof/Machine/Regs.lean ====
section
/-! DEFINITION. Writes to control space, by access code (R13), and the commands READ_TO_CLEAR,
REGISTER_WRITE and PK_ASSIGN. -/

namespace Sys2Proof.Machine

/-! ## ID assignment (R342, R352, R422, R476) -/

/-- A cold start clears the alarm sources and ERASED (R408, R422, R433). -/
def State.clearAlarm (s : State) : State := s.onSec fun x => { x with alarm := 0, erased := false }

/-- The partner of a peer port has declared itself an RQ-family chiplet (R311). -/
def State.family (s : State) (p : Port) : Bool :=
  let id := (s.proto.pid.get p).toNat
  isPeer p && (s.port p).capGot && field id 0 16 == 0x0B74 && field id 24 8 == 8

/-- HG_FENCE: every port but those to RQ-family chiplets (R33, R311, R314). -/
def State.setFence (s : State) : State :=
  let open_ := ((List.range 7).map (fin 6)).filter s.family
  { s with proto := { s.proto with fence := open_.foldl (fun f p => setBit f p.1 false) 0x7F } }

/-- A write of PK_ASSIGN: once per start, while ID_VALID is 0. The ROUTE of the entry comes with it. A write
that reaches a chiplet that drives a tree of its own is the meeting of two leads: it halts, and tells the other
(R330; log 108). An Alarmed chiplet
stops in a warm start (R476). -/
def W.assign (w : W) (v : W32) : W :=
  let p := w.s.pk
  if p.phase ≠ .starting then w
  else if p.lead then
    if p.tree then
      let w1 := w.halt p.id 8 0
      w1.on fun s => s.emit (.toPkg (.report (BitVec.ofNat 32 s.pk.halt.toNat)))
    else w
  else if p.idValid then w
  else
    let cold := v.getLsbD 3
    let id := BitVec.ofNat 3 (field v.toNat 0 3)
    if !cold && w.s.alarmed then
      w.on fun s => (s.endStart .stopped).emit (.toPkg .stop)
    else
      w.on fun s =>
        let s1 := { s with pk := { s.pk with id := id, idValid := true, cold := cold, route := w.env.route } }
        let s2 := if cold then (s1.clearAlarm).count 1 1 else s1
        s2.setFence.emit (.toPkg (.described id.toNat))

def execPkAssign (v : W32) (e : Env) (s : State) : Host.Outcome State Fault Refusal :=
  .next ((⟨s, e⟩ : W).assign v).s

/-! ## Slots -/

/-- A slot's 64 bits with the halves that a write gives. -/
def halves (old v : Nat) (lo hi : Bool) : Nat :=
  two (if lo then v else old) (if hi then v / 2 ^ 32 else old / 2 ^ 32)

/-- RWL fields may be written (R13). -/
def State.startUp (s : State) : Bool := !s.pk.running

/-- MX_MODE, MX_EPI and VC_CFG, which the region controller writes (R148, R183). -/
def State.clusterWrite (s : State) (k : Fin 64) (o v : Nat) (lo hi : Bool) : State :=
  s.onCluster k fun y =>
    match o with
    | 0x00 =>
      { y with mode := if lo then BitVec.ofNat 32 v &&& 0x3FFF3FF0#32 else y.mode,
               epi := if hi then BitVec.ofNat 32 (v / 2 ^ 32) &&& 0xFFFF000F#32 else y.epi }
    | 0x40 => { y with vcCfg := if lo then BitVec.ofNat 32 v &&& 0x0FFFFFFF#32 else y.vcCfg }
    | _ => y

/-- An address field [55:6] (R374, R433). -/
def blockAddr (v : Nat) : Addr := BitVec.ofNat 56 (field v 6 50 * 64)

/-- A write of a ring's registers (R354, R355, R374). -/
def W.ringWrite (w : W) (r : Region) (i : RingNo) (o v : Nat) (lo hi : Bool) : W :=
  match o with
  | 0x00 => w.on (·.onRing r i fun q => if q.en then q else { q with base := blockAddr (halves q.base.toNat v lo hi) })
  | 0x08 => if lo then w.on (·.ringCfg r i (BitVec.ofNat 32 v)) else w
  | 0x10 => if lo then w.doorbell r i (BitVec.ofNat 32 v) else w
  | _ => w

/-- A write of a region's control block (R252, R374). -/
def W.regionWrite (w : W) (r : Region) (o v : Nat) (lo hi : Bool) : W :=
  let flt := fun (f : FaultRing → FaultRing) => w.on (·.onRegion r fun x => { x with flt := f x.flt })
  if o < 0x200 then w.ringWrite r (fin 7 (o / 0x40)) (o % 0x40) v lo hi
  else if 0x1000 ≤ o ∧ o < 0x2000 then
    w.on (·.onRegion r fun x =>
      { x with mbox := memWriteN x.mbox (o - 0x1000) (natToBytes 8 (halves (memNat x.mbox (o - 0x1000) 8) v lo hi)) })
  else match o with
    | 0x800 => w.on (·.onRegion r fun x => { x with events := x.events ++ [BitVec.ofNat 64 (halves 0 v lo hi)] })
    | 0x4000 => flt fun q => if q.en then q else { q with base := blockAddr (halves q.base.toNat v lo hi) }
    | 0x4008 => if lo then flt (·.configure (BitVec.ofNat 32 v)) else w
    | 0x4010 => if lo then flt (·.consume (BitVec.ofNat 32 v)) else w
    | 0x4018 => flt fun q =>
        let x := halves (place (bit q.notifyEn) 63 1 + q.notifyAddr.toNat) v lo hi
        { q with notifyEn := testBit x 63, notifyAddr := BitVec.ofNat 56 x }
    | 0x8000 => if lo then w.startCtx r (field v 0 18) else w
    | 0x8008 => if lo && w.s.startUp then w.on (·.onFerry r fun y => { y with tagCap := BitVec.ofNat 15 v }) else w
    | 0x8800 => if lo && w.s.startUp then
        w.on (·.onFerry r fun y => { y with scrubEn := testBit v 31, scrubPeriod := BitVec.ofNat 16 v }) else w
    | 0x8820 => if lo then w.on (·.lgWrite r v) else w
    | _ => w

/-- A window's register written in start-up (R319). -/
def Window16.write (x : Window16) (o v : Nat) (lo hi : Bool) : Window16 :=
  match o with
  | 0x00 =>
    if lo then
      { x with
        type := BitVec.ofNat 2 (field v 30 2), rd := testBit v 29, wr := testBit v 28, ord := testBit v 27,
        size := BitVec.ofNat 6 (field v 16 6) }
    else x
  | 0x08 => { x with base := BitVec.ofNat 56 (halves x.base.toNat v lo hi) }
  | 0x10 => { x with target := BitVec.ofNat 56 (halves x.target.toNat v lo hi) }
  | _ => x

/-- A write of the HG_ registers; a package whose start-up has ended without step 17 has no window (R319, R346,
R476). -/
def State.hgWrite (s : State) (o v : Nat) (lo hi : Bool) : State :=
  if s.startUp ∧ s.pk.phase ≠ .halted ∧ s.pk.phase ≠ .stopped ∧ 0x1000 ≤ o ∧ o < 0x1000 + 0x200 * 7 then
    let p := fin 6 ((o - 0x1000) / 0x200)
    let k := fin 15 (o % 0x200 / 0x20)
    let ws := vmod s.proto.windows p fun ws => vmod ws k fun x => x.write (o % 0x20) v lo hi
    { s with proto := { s.proto with windows := ws } }
  else s

/-- A write of the PW_ and AO_ registers (R381, R384, R386, R396). PW_PKG acts on the lead. -/
def W.pwWrite (w : W) (o v : Nat) (lo hi : Bool) : W :=
  if o = 0x00 then
    if lo && w.s.startUp then
      w.on (·.onPower fun p =>
        { p with slackDelay := BitVec.ofNat 8 (field v 16 8), clusterDelay := BitVec.ofNat 8 (field v 8 8) })
    else w
  else if o = 0x08 then
    if lo then
      let w1 := if testBit v 31 then w.ebbReq else w
      if testBit v 30 then w1.on (·.offReq) else w1
    else w
  else if o = 0x808 then
    w.on fun s =>
      let x := halves (place (bit s.ao.timerEn) 63 1 + s.ao.timer.toNat) v lo hi
      { s with ao := { s.ao with timerEn := testBit x 63, timer := BitVec.ofNat 48 x } }
  else if o = 0x818 then
    if lo && testBit v 0 then w.on (·.wakeEvent 1) else w
  else w

/-- A write of SEC_DBG: NEW_NONCE, GO and LOWER_EN act in this order (R425, R426; log 154). -/
def W.debugCtrl (w : W) (nonce go lower : Bool) (level : BitVec 2) : W :=
  let w1 := if nonce then w.on (·.newNonce) else w
  let w2 := if go then w1.tokenGo else w1
  if lower then w2.on (·.lowerLevel level) else w2

/-- A write of the SEC_ registers; ignored in Ebb (R430, R433). -/
def W.secWrite (w : W) (o v : Nat) (lo hi : Bool) : W :=
  if !w.s.prodomRuns then w
  else if 0xA0 ≤ o ∧ o < 0xC0 then
    w.on (·.onSec fun x =>
      let i := 8 * (o % 32)
      { x with attNonce := BitVec.ofNat 256 (setField x.attNonce.toNat i 64
          (halves (field x.attNonce.toNat i 64) v lo hi)) })
  else if 0x1000 ≤ o ∧ o < 0x3000 then
    w.on (·.onSec fun x =>
      { x with token := memWriteN x.token (o - 0x1000) (natToBytes 8 (halves (memNat x.token (o - 0x1000) 8) v lo hi)) })
  else if o = 0x00 then
    if hi && w.s.startUp then w.on (·.onSec fun x => { x with eraseMask := BitVec.ofNat 7 (v / 2 ^ 32) }) else w
  else if o = 0x08 then
    if hi then w.debugCtrl (testBit v 63) (testBit v 62) (testBit v 61) (BitVec.ofNat 2 (field v 59 2)) else w
  else if o = 0x10 then (if lo && testBit v 31 then w.attGo else w)
  else if o = 0x18 then w.on (·.onSec fun x => { x with attDst := blockAddr (halves x.attDst.toNat v lo hi) })
  else w

/-- A write of the LT_ registers (R446, R449). -/
def State.ltWrite (s : State) (o v : Nat) (lo hi : Bool) : State :=
  match o with
  | 0x00 =>
    if hi then
      let s1 := if testBit v 63 then s.wantFlush else s
      if testBit v 62 then s1.wantSnap else s1
    else s
  | 0x18 => if lo then { s with life := { s.life with logWin := BitVec.ofNat 17 (field v 15 17) } } else s
  | _ => s

/-- A write of the chiplet-wide SN_ and FY_ registers (R253). -/
def State.snWrite (s : State) (o v : Nat) (lo : Bool) : State :=
  if !s.startUp || !lo then s
  else match o with
    | 0x00 => { s with proto := { s.proto with stackWays := BitVec.ofNat 2 (field v 6 2), stackGran := BitVec.ofNat 4 v } }
    | 0x10 => { s with proto := { s.proto with defTags := BitVec.ofNat 8 v } }
    | _ => s

/-- A write of the halves `lo` and `hi` of an aligned slot, by any initiator but the region controller's own
writes of MX_ and VC_ (R13, R220, R221). -/
def W.slotWrite (w : W) (blk o v : Nat) (lo hi : Bool) : W :=
  if blk < 64 then (if w.s.present (blk / 8) (blk % 8) then w.on (·.wakeCluster blk) else w)
  else if blk < 72 then (w.on (·.wakeRegion (fin 7 (blk - 64)))).regionWrite (fin 7 (blk - 64)) o v lo hi
  else match blk with
    | 72 => if o = 0 && lo && w.s.startUp then
        w.on fun s => { s with link := { s.link with replayTo := BitVec.ofNat 16 v } } else w
    | 73 => w.on (·.hgWrite o v lo hi)
    | 74 => if o = 0x18 && hi then w.assign (BitVec.ofNat 32 (v / 2 ^ 32)) else w
    | 75 => w.pwWrite o v lo hi
    | 76 => w.secWrite o v lo hi
    | 77 => w.on (·.ltWrite o v lo hi)
    | 78 => w.on (·.snWrite o v lo)
    | _ => w

/-- A write of 4 or 8 bytes at an aligned offset of control space (R220). -/
def W.ctlWrite (w : W) (blk off n v : Nat) : W :=
  w.slotWrite blk (off / 8 * 8) (if off % 8 = 0 then v else v * 2 ^ 32) (off % 8 == 0) (n == 8 || off % 8 == 4)

/-- A naturally aligned access of 4 or 8 bytes (R220). -/
def ctlAligned (off n : Nat) : Bool := (n == 4 || n == 8) && off % n == 0

/-! ## Who reaches what (R34, R346, R396, R423, R433, R449) -/

/-- Offsets of SEC_ that I3C reaches (R433). -/
def i3cSec (o : Nat) : Bool :=
  o == 0 || o == 8 || o == 0xC || o == 0x14 || (decide (0x40 ≤ o) && decide (o < 0xA0)) ||
    (decide (0x1000 ≤ o) && decide (o < 0x3000))

/-- I3C on the lead reads status and lifetime records: PK_, PW_ and AO_, LT_, and some of SEC_ (R34, R346,
R433, R449). -/
def State.mayRead (s : State) (who : Initiator) (blk off : Nat) : Bool :=
  match who with
  | .controller _ | .family => true
  | .i3c => s.pk.lead && (blk == 74 || blk == 75 || blk == 77 || (blk == 76 && i3cSec off))
  | .tap => blk == 76 || (decide (1 ≤ s.sec.level.toNat) && (blk == 77 || blk == 75))

/-- I3C on the lead writes PW_PKG and AO_CMD, SEC_DBG and SEC_TOKEN, and LT_; the TAP's instruments SEC_
(R396, R433, R449). -/
def State.mayWrite (s : State) (who : Initiator) (blk off : Nat) : Bool :=
  match who with
  | .controller _ | .family => true
  | .i3c => s.pk.lead &&
      ((blk == 75 && (off == 8 || off == 0x818)) || blk == 77 || (blk == 76 && i3cSec off))
  | .tap => blk == 76

/-- Region whose fault ring takes an initiator's records: a controller's own, region 0 for any other (R368). -/
def initRegion : Initiator → Region
  | .controller r => r
  | _ => 0

/-- A control access that is rejected, with its record (R220, R368, R369). -/
def W.ctlReject (w : W) (by_ : Initiator) (cause blk off : Nat) : W :=
  w.accessFault (w.s.unit (initRegion by_)) cause (w.s.onChip (0x300000000 + blk * 0x10000 + off))

/-- MX_ and VC_ are written by region controllers only (R148, R183). -/
def writesClusters : Initiator → Bool
  | .controller _ => true
  | _ => false

/-- A read of a register; RC fields clear (R13). The value goes out. What an initiator does not reach reads
as 0. -/
def execReadToClear (by_ : Initiator) (blk off : Nat) (wide : Bool) (e : Env) (s : State) :
    Host.Outcome State Fault Refusal :=
  let n := if wide then 8 else 4
  let w : W := ⟨s, e⟩
  if s.power.st = .off ∨ 256 ≤ blk ∨ 65536 ≤ off then .next s
  else if !ctlAligned off n then .next ((w.ctlReject by_ 1 blk off).on (·.emit (.value 0))).s
  else if !s.mayRead by_ blk off then .next (s.emit (.value 0))
  else
    let x := w.ctlRead blk off n
    .next (x.1.s.emit (.value (BitVec.ofNat 64 (bytesToNat x.2))))

/-- A write of a register, by its access code (R13). -/
def execRegisterWrite (by_ : Initiator) (blk off : Nat) (wide : Bool) (v : W64) (e : Env) (s : State) :
    Host.Outcome State Fault Refusal :=
  let n := if wide then 8 else 4
  let w : W := ⟨s, e⟩
  if s.power.st = .off ∨ 256 ≤ blk ∨ 65536 ≤ off then .next s
  else if !ctlAligned off n then .next (w.ctlReject by_ 2 blk off).s
  else if !s.mayWrite by_ blk off then .next s
  else if writesClusters by_ ∧ blk < 64 then
    if s.present (blk / 8) (blk % 8) then
      .next ((s.clusterWrite (fin 63 blk) (off / 8 * 8) (if off % 8 = 0 then v.toNat else v.toNat * 2 ^ 32) (off % 8 == 0)
        (wide || off % 8 == 4)).wakeCluster blk)
    else .next s
  else .next (w.ctlWrite blk off n (if wide then v.toNat else v.toNat % 2 ^ 32)).s

end Sys2Proof.Machine
end

