-- ==== Sys2Proof/Machine/Serve.lean ====
section
/-! DEFINITION. Requests of other initiators, the harbour gate inward, streams, payload flits and
completions (R293-R305, R309-R316), and the ring holds that end in a write (R363). -/

namespace Sys2Proof.Machine

/-! ## Executing a request on this chiplet (R220, R298, R304, R310, R369) -/

/-- The unit that asks: another chiplet, or this chiplet's gate for the partner of a port (R368, R369). -/
def State.asker (s : State) (o : Origin) : Who :=
  { s.unit 0 with
    detail := if o.gate then s.pk.id.toNat + 2 ^ 8 + place o.port.1 9 3 else o.src.toNat }

/-- The request's access with its answer: none while a port has still to answer. -/
abbrev Reply := W × Option (Status × Nat × List Byte)

/-- A request sent on through a way, for the origin's sake (R311, R315, R316). -/
def W.sendOn (w : W) (o : Origin) (a : Nat) (k : Access) (x : StreamReq) : Reply :=
  let y := w.exit a k
  match y.2 with
  | .inr st => (y.1, some (st, 0, []))
  | .inl v =>
    (y.1.on fun s => s.postWay v x.op x.atop x.q.len x.data x.q.op0 x.q.op1 (.serve o 0 x.q.len), none)

/-- A read of this chiplet's stack: whole blocks are read (R310). -/
def W.stackRead (w : W) (o : Origin) (a n : Nat) : Reply :=
  let y := w.exit a .read
  match y.2 with
  | .inr st => (y.1, some (st, 0, []))
  | .inl v =>
    let skip := v.addr % 64
    let lo := v.addr - skip
    let len := (v.addr + n + 63) / 64 * 64 - lo
    (y.1.on fun s => s.postWay { v with addr := lo } 1 0 len [] 0 0 (.serve o skip n), none)

/-- A write to this chiplet's stack; a part of a block is merged after a checked read (R304, R310). -/
def W.stackWrite (w : W) (o : Origin) (a : Nat) (bs : List Byte) : Reply :=
  let y := w.exit a .write
  match y.2 with
  | .inr st => (y.1, some (st, 0, []))
  | .inl v =>
    let skip := v.addr % 64
    if skip = 0 ∧ bs.length % 64 = 0 then
      (y.1.on fun s => s.postWay v 2 0 bs.length bs 0 0 (.serve o 0 0), none)
    else
      let lo := v.addr - skip
      let len := (v.addr + bs.length + 63) / 64 * 64 - lo
      (y.1.on fun s => s.postWay { v with addr := lo } 1 0 len [] 0 0 (.merge o skip bs), none)

/-- A rejected access of another initiator, with its record (R220, R369). -/
def W.serveReject (w : W) (o : Origin) (cause a : Nat) : Reply :=
  (w.accessFault (w.s.asker o) cause a, some (.error, 0, []))

/-- A read of `n` bytes at an address of this chiplet. -/
def W.serveRead (w : W) (o : Origin) (a n : Nat) (x : StreamReq) : Reply :=
  match w.s.locateN a n with
  | .control blk off =>
    if ctlAligned off n then
      let y := w.ctlRead blk off n
      (y.1, some (.ok, 0, y.2))
    else w.serveReject o 1 a
  | .stack _ => w.stackRead o a n
  | .away => w.sendOn o a .read x
  | _ =>
    let y := w.read (w.s.asker o) a n
    (y.1, some (y.2.1, 0, y.2.2))

/-- A write at an address of this chiplet: WR, WRS or DBELL. -/
def W.serveWrite (w : W) (o : Origin) (a : Nat) (bs : List Byte) (x : StreamReq) : Reply :=
  match w.s.locateN a bs.length with
  | .control blk off =>
    if ctlAligned off bs.length then (w.ctlWrite blk off bs.length (bytesToNat bs), some (.ok, 0, []))
    else w.serveReject o 2 a
  | .stack off => if w.s.inImage off bs.length then w.serveReject o 2 a else w.stackWrite o a bs
  | .away => w.sendOn o a .write x
  | _ =>
    let y := w.write (w.s.asker o) a bs
    (y.1, some (y.2, 0, []))

/-- Counter of an address: the CMD_CTR_VALUE of its region's control block (R298, R374). -/
def counterAt (blk off : Nat) : Option Nat :=
  if 64 ≤ blk ∧ blk < 72 ∧ 0x2000 ≤ off ∧ off < 0x2800 ∧ off % 16 = 0 then
    some (128 * (blk - 64) + (off - 0x2000) / 16) else none

/-- An atomic operation: ADD, SWAP and CAS on an aligned word of the lagoon, DRAW on a work counter; any
other target gives ERROR (R298). One at an unpopulated offset, or misaligned in control space, is rejected
(R220). -/
def W.serveAtom (w : W) (o : Origin) (a : Nat) (x : StreamReq) : Reply :=
  let no : Reply := (w, some (.error, 0, []))
  let aligned := a % 8 == 0 && x.q.len == 8
  match w.s.locateN a x.q.len with
  | .lagoon off =>
    if 3 ≤ x.atop ∨ !aligned then no
    else
      let y := w.lagoonRead off 8
      if y.2.1 ≠ .ok then (y.1, some (y.2.1, 0, []))
      else
        let old := bytesToNat y.2.2
        let new := if x.atop = 0 then old + x.q.op0.toNat
          else if x.atop = 1 ∨ old = x.q.op1.toNat then x.q.op0.toNat else old
        (y.1.on (·.lagoonPut off (natToBytes 8 new)), some (.ok, old, []))
  | .control blk off =>
    if !ctlAligned off x.q.len then w.serveReject o 2 a
    else match counterAt blk off with
      | some n =>
        if x.atop = 3 ∧ aligned then
          let y := w.s.draw n
          (w.on fun _ => y.1, some (.ok, y.2, []))
        else no
      | none => no
  | .away => if aligned then w.sendOn o a .atom x else no
  | .hole => w.serveReject o 2 a
  | _ => no

/-- A request executed on this chiplet, at an address whose CHIP is its own. Bytes outside one aligned
256-byte block are rejected (R297). -/
def W.serveHere (w : W) (o : Origin) (x : StreamReq) : Reply :=
  let a := x.q.addr.toNat
  let n := x.q.len
  if n = 0 ∨ 256 < a % 256 + n then (w, some (.error, 0, []))
  else match x.op with
    | 1 => w.serveRead o a n x
    | 2 => w.serveWrite o a ((x.data ++ List.replicate n 0).take n) x
    | 3 | 5 => if 8 < n then (w, some (.error, 0, [])) else w.serveWrite o a (natToBytes n x.q.op0.toNat) x
    | 4 => w.serveAtom o a x
    | _ => (w, some (.ok, x.tdo.toNat, []))

/-- A request whose outcome is known is answered; its stream goes on (R296, R304). -/
def W.answered (o : Origin) (x : StreamReq) (y : Reply) : W :=
  match y.2 with
  | none => y.1
  | some (st, res, data) => y.1.on (·.respond o x.op st res data)

/-! ## The harbour gate inward (R314, R315) -/

/-- What the gate makes of a request: a package address, or a refusal with the window that matched. -/
def State.gateIn (s : State) (p : Port) (x : StreamReq) : Nat ⊕ (Bool × Nat) :=
  let a := x.q.addr.toNat
  if field a 52 4 ≠ 0 then .inr (false, 0)
  else match (List.range 16).find? (fun k =>
      let w := s.window p k
      (w.type == 1 || w.type == 3) && w.hit a) with
    | none => .inr (false, 0)
    | some k =>
      let w := s.window p k
      let read := x.op == 1
      let atom := x.op == 4
      let o := a - w.base.toNat
      let no : Nat ⊕ (Bool × Nat) := .inr (true, k)
      if ((read || atom) && !w.rd) || (!read && !w.wr) then no
      else if w.type = 1 then (if x.op = 5 then no else .inl ((w.target.toNat + o) % 2 ^ 56))
      else
        let r := field o 16 4
        let off := field o 0 16
        let at_ := fun blk => place (addrChip w.target.toNat) 52 3 + 2 ^ 51 + 0x300000000 + blk * 0x10000 + off
        if r < 8 then (if off < 0x2000 then .inl (at_ (64 + r)) else no)
        else if r = 8 ∧ read then .inl (at_ 77)
        else no

/-- The permission that an operation needs (R315, R316). -/
def accessOf (op : Nat) : Access := if op = 1 then .read else if op = 4 then .atom else .write

/-- A request of the partner of a fenced port (R314, R315). -/
def W.gate (w : W) (o : Origin) (x : StreamReq) : W :=
  match w.s.gateIn o.port x with
  | .inr (hit, k) =>
    ((w.refuse false hit k o.port x.q.addr.toNat).on (·.respond o x.op .refused 0 []))
  | .inl a =>
    let y := { x with q := { x.q with addr := BitVec.ofNat 56 a } }
    if addrChip a = w.s.pk.id.toNat then W.answered o y (w.serveHere o y)
    else if x.q.len = 0 ∨ 256 < a % 256 + x.q.len then w.on (·.respond o x.op .error 0 [])
    else W.answered o y (w.sendOn o a (accessOf x.op) y)

/-! ## Arrival (R297, R303, R309, R311, R342) -/

/-- A feature of the package capability set (R307). -/
def State.hasFeature (s : State) (i : Nat) : Bool := s.proto.pkgFeat.getLsbD i

/-- An operation that the partner of a port may send by the port's profile (R297, R298, R309). -/
def State.inProfile (s : State) (p : Port) (op atop : Nat) : Bool :=
  match op with
  | 1 | 2 | 3 | 5 => true
  | 4 => decide (atop < (if isPeer p then 4 else 3))
  | 8 => !s.proto.fence.getLsbD p.1
  | _ => false

/-- A port's profile and the package set allow an operation (R297, R307, R309). -/
def State.supports (s : State) (p : Port) (x : StreamReq) : Bool :=
  s.inProfile p x.op x.atop && match x.op with
    | 4 => s.hasFeature (if isPeer p then 0 else 18)
    | 8 => s.hasFeature 2
    | _ => true

/-- A request forwarded along the route, as it stands; a WR's payload flit travels by its own DST (R37,
R311). -/
def W.forward (w : W) (o : Origin) (x : StreamReq) : W :=
  let q := x.q
  let first := reqSlot x.op q.src.toNat q.tag.toNat q.len q.ostr.toNat q.oseq.toNat x.atop q.addr.toNat
  let second := place q.op1.toNat 64 64 + q.op0.toNat
  let slots := if opSlots x.op = 2 then [first, second] else [first]
  match w.s.routePort (addrChip q.addr.toNat) with
  | some r =>
    if (w.s.port r).state = 2 ∨ (w.s.port r).state = 3 then w.on (·.sendFlit r (msgFlit 0 slots))
    else w.on (·.respond o x.op .down 0 [])
  | none => w.on (·.respond o x.op .down 0 [])

/-- A request for another chiplet, at a port between RQ-family chiplets: it goes on along the route (R37, R311). -/
def State.passesReq (s : State) (p : Port) (q : Req) : Bool :=
  !s.proto.fence.getLsbD p.1 && s.pk.idValid && addrChip q.addr.toNat != s.pk.id.toNat

/-- A request takes its course: UNSUPPORTED outside the profile or the package set, with a record where the
partner may not send it; the gate at a fenced port; otherwise execution here or the next hop. A chiplet without
an ID executes every request (R297, R309, R311, R315, R342). -/
def W.runReq (w : W) (p : Port) (x : StreamReq) : W :=
  let o : Origin :=
    ⟨p, x.q.src, x.q.tag, x.q.ostr, w.s.proto.fence.getLsbD p.1 && (w.s.pk.idValid || !isPeer p)⟩
  if !w.s.supports p x then
    let w1 := w.on (·.respond o x.op .unsupported 0 [])
    if w.s.inProfile p x.op x.atop then w1 else w1.fault 0 { source := 7, cause := 2, region := 0, detail := p.1 }
  else if o.gate then w.gate o x
  else if w.s.passesReq p x.q then (w.forward o x).on (·.streamDone o)
  else
    let a := setField x.q.addr.toNat 52 3 w.s.pk.id.toNat
    let y := { x with q := { x.q with addr := BitVec.ofNat 56 a } }
    W.answered o y (w.serveHere o y)

/-- Origin of the request of a post, when it is another initiator's. -/
def Post.origin (x : Post) : Option Origin :=
  match x.use_ with
  | .serve o _ _ | .merge o _ _ => some o
  | _ => none

/-- Entries of a port's gate table in use (R315). -/
def State.gateUse (s : State) (p : Port) : Nat :=
  ((s.outstanding.map (·.x)) ++ s.proto.waiting).countP fun x => match x.origin with
    | some o => o.gate && o.port == p
    | none => false

/-- The stream of a request, by its port, initiator and OSTR (R303). -/
def Stream.isOf (y : Stream) (p : Port) (q : Req) : Bool := y.port == p && y.src == q.src && y.ostr == q.ostr

/-- The stream of a request at a port; one not met before expects OSEQ 0 (R303; DESIGN CHOICE, log 149). -/
def State.streamOf (s : State) (p : Port) (q : Req) : Stream :=
  (s.proto.streams.find? (·.isOf p q)).getD ⟨p, q.src, q.ostr, 0, false, []⟩

/-- A stream put back into the table. -/
def State.setStream (s : State) (y : Stream) : State :=
  let same := fun (z : Stream) => z.port == y.port && z.src == y.src && z.ostr == y.ostr
  { s with proto := { s.proto with streams := (s.proto.streams.filter fun z => !same z) ++ [y] } }

/-- A request in order: it runs, or waits for its turn in the stream (R303, R304). One that a full gate table
cannot take waits too, in stream 0 (R315). An OSEQ outside the 64 that may be outstanding is no place in the
stream: the request runs at once (DESIGN CHOICE, log 149). -/
def W.ordered (w : W) (p : Port) (x : StreamReq) : W :=
  let q := x.q
  let y := w.s.streamOf p q
  let wait := w.on (·.setStream { y with waiting := y.waiting ++ [x] })
  let full := w.s.proto.fence.getLsbD p.1 && decide (1024 ≤ w.s.gateUse p)
  if q.ostr = 0 then (if full || !y.waiting.isEmpty then wait else w.runReq p x)
  else if 64 ≤ (q.oseq - y.next).toNat then w.runReq p x
  else if q.oseq = y.next ∧ !y.busy ∧ !full then
    (w.on (·.setStream { y with next := y.next + 1, busy := true })).runReq p x
  else wait

/-! ## Messages of a flit (R291, R294-R297, R309) -/

/-- A message that a command of its own takes: an operation of R297, a response, CAP or CAPACK. -/
def RxMsg.named (m : RxMsg) : Bool :=
  [1, 2, 3, 5, 8, 0x10, 0x11, 0x20, 0x21, 0x22].contains m.op || (m.op == 4 && decide (m.atop < 4))

/-- A response for another chiplet, at a port between RQ-family chiplets (R37, R311). -/
def State.passesMsg (s : State) (p : Port) (m : RxMsg) : Bool :=
  [0x20, 0x21, 0x22].contains m.op && !s.proto.fence.getLsbD p.1 && m.src.toNat != s.pk.id.toNat

/-- A message that no command takes: a response for another chiplet goes on along the route, a reserved
operation is answered UNSUPPORTED in its place, and one from a stack is discarded with a record (R37, R297, R304,
R309). -/
def W.act (w : W) (p : Port) (m : RxMsg) : W :=
  if w.s.passesMsg p m then
    match w.s.routePort m.src.toNat with
    | some q => w.on (·.sendFlit q (msgFlit 1 (m.slots.map (·.toNat))))
    | none => w
  else if isMemory p then w.fault 0 { source := 7, cause := 3, region := 0, detail := p.1 }
  else w.ordered p ⟨m.op, m.atop, m.req, [], 0⟩

/-- The messages of a flit up to the next that a command takes (R294). -/
def W.actOn (w : W) (p : Port) : List RxMsg → W × List RxMsg
  | [] => (w, [])
  | m :: ms => if m.named && !w.s.passesMsg p m then (w, m :: ms) else (w.act p m).actOn p ms

/-- The messages of a flit that wait join the inbox of their port. -/
def W.queueMsgs (w : W) (p : Port) (ms : List RxMsg) : W :=
  let x := w.actOn p ms
  if x.2.isEmpty then x.1 else x.1.on (·.onPort p fun q => { q with inbox := q.inbox ++ [x.2] })

/-- After a command has taken its message, those behind it that no command takes (R294). -/
def W.settleInbox (w : W) (p : Port) : W :=
  (w.s.port p).inbox.foldl (fun w ms => w.queueMsgs p ms) (w.on (·.onPort p fun q => { q with inbox := [] }))

/-- The request of a message with this operation and these fields. -/
def RxMsg.isReq (m : RxMsg) (op atop : Nat) (q : Req) : Bool := m.op == op && m.atop == atop && m.req == q

/-- A request that has arrived on a port, as the next message of its flit, with its write data where it is not
for another chiplet (R293, R294, R297, R309): one from a stack is discarded with a record, any other takes its
place in its stream. -/
def W.arrive (w : W) (p : Port) (op atop : Nat) (q : Req) (tdo : W64) : W :=
  let m := fun (m : RxMsg) => m.isReq op atop q
  if !w.s.portUp p || (w.s.due p m).isNone then w
  else
    let w1 := w.on (·.takeMsg p m)
    if isMemory p then (w1.fault 0 { source := 7, cause := 3, region := 0, detail := p.1 }).settleInbox p
    else if op = 2 ∧ !w.s.passesReq p q then
      let y := w1.s.takePayload p 0 q.src.toNat q.tag.toNat
      match y.2 with
      | some data => ((w1.on fun _ => y.1).ordered p ⟨op, atop, q, data.take q.len, tdo⟩).settleInbox p
      | none => w
    else (w1.ordered p ⟨op, atop, q, [], tdo⟩).settleInbox p

def execRd (p : Port) (q : Req) (e : Env) (s : State) : Host.Outcome State Fault Refusal :=
  .next ((⟨s, e⟩ : W).arrive p 1 0 q 0).s

def execWr (p : Port) (q : Req) (e : Env) (s : State) : Host.Outcome State Fault Refusal :=
  .next ((⟨s, e⟩ : W).arrive p 2 0 q 0).s

def execWrs (p : Port) (q : Req) (e : Env) (s : State) : Host.Outcome State Fault Refusal :=
  .next ((⟨s, e⟩ : W).arrive p 3 0 q 0).s

def execAtomAdd (p : Port) (q : Req) (e : Env) (s : State) : Host.Outcome State Fault Refusal :=
  .next ((⟨s, e⟩ : W).arrive p 4 0 q 0).s

def execAtomSwap (p : Port) (q : Req) (e : Env) (s : State) : Host.Outcome State Fault Refusal :=
  .next ((⟨s, e⟩ : W).arrive p 4 1 q 0).s

def execAtomCas (p : Port) (q : Req) (e : Env) (s : State) : Host.Outcome State Fault Refusal :=
  .next ((⟨s, e⟩ : W).arrive p 4 2 q 0).s

def execAtomDraw (p : Port) (q : Req) (e : Env) (s : State) : Host.Outcome State Fault Refusal :=
  .next ((⟨s, e⟩ : W).arrive p 4 3 q 0).s

def execDbell (p : Port) (q : Req) (e : Env) (s : State) : Host.Outcome State Fault Refusal :=
  .next ((⟨s, e⟩ : W).arrive p 5 0 q 0).s

def execTsb (p : Port) (q : Req) (testOut : W64) (s : State) : Host.Outcome State Fault Refusal :=
  .next ((⟨s, Env.quiet⟩ : W).arrive p 8 0 q testOut).s

/-- The next request of a stream whose earlier ones have taken effect (R303, R304, R315). -/
def execStreamRequestRelease (p : Port) (ostr : BitVec 8) (e : Env) (s : State) : Host.Outcome State Fault Refusal :=
  let ready := fun (y : Stream) => y.port == p && y.ostr == ostr && !y.busy &&
    (if ostr = 0 then !y.waiting.isEmpty else y.waiting.any fun x => x.q.oseq == y.next)
  let full := s.proto.fence.getLsbD p.1 && decide (1024 ≤ s.gateUse p)
  match s.proto.streams.find? ready with
  | none => .next s
  | some y =>
    let z := takeFirst (fun (x : StreamReq) => ostr == 0 || x.q.oseq == y.next) y.waiting
    match z.1 with
    | none => .next s
    | some x =>
      if full then .next s
      else
        let left : Stream :=
          { y with waiting := z.2, next := if ostr = 0 then y.next else y.next + 1, busy := ostr != 0 }
        let streams := s.proto.streams.map fun t => if t = y then left else t
        .next ((⟨{ s with proto := { s.proto with streams := streams } }, e⟩ : W).runReq p x).s

/-! ## Payload flits and chain records (R122, R146, R293, R299) -/

/-- The 16 records of a CHN payload flit (R56, R293). -/
def chainRecs (payload : List Byte) : List IVal :=
  (List.range 16).map fun i => IVal.ofRecord (sub payload (16 * i) 16)

/-- An abort reaches a position as a trailer with ABORT set: the part is discarded, with cause chain abort
(R145, R146). -/
def State.chainAbort (s : State) (k : Fin 64) (t : Nat) : State :=
  let y := s.clusters.get k
  let s1 := match y.inst, y.pos with
    | some me, some q => match (s.inst me.1 me.2).chart with
      | some c => ((⟨s, Env.quiet⟩ : W).abortTile me c k q t 5).s
      | none => s
    | _, _ => s
  s1.onCluster k fun z => { z with chainIn := { z.chainIn.forget t with due := z.chainIn.due.erase t } }

/-- A CHN flit put into its cluster's inbox, whose clock it starts (R122, R293, R377). -/
def State.takeChain (s : State) (proto : Nat) (payload : List Byte) : State :=
  let k := fin 63 (8 * field proto 37 3 + field proto 34 3)
  let s1 := s.wakeCluster k.1
  if testBit proto 23 then
    let t := sub payload 8 8
    if testBit (sub payload 0 1) 2 then s1.chainAbort k t
    else s1.onCluster k (·.takeTrailer t (BitVec.ofNat 8 (sub payload 0 1)))
  else s1.onCluster k (·.takeRow (field proto 27 7) (field proto 24 3) (chainRecs payload))

/-- A payload flit that waits at its port: write and read data stay there for their message, chain records enter
their cluster. Chain records wait in forced Slack (R392); at a fenced port, or without P_CHAIN, they lie outside
the profile (R309, R311). -/
def execPayloadFlit (p : Port) (proto : W64) (payload : List Byte) (s : State) : Host.Outcome State Fault Refusal :=
  let f : TxFlit := ⟨proto, payload⟩
  if !(s.port p).payWait.contains f ∨ protoClass proto ≠ 2 ∨ s.power.forced then .next s
  else
    let s1 := (s.onPort p fun q => { q with payWait := (takeFirst (· == f) q.payWait).2 }).freeFlit p f.cls
    if s.proto.fence.getLsbD p.1 ∨ !s.hasFeature 1 then
      .next ((⟨s1, Env.quiet⟩ : W).fault 0 { source := 7, cause := 2, region := 0, detail := p.1 }).s
    else .next (s1.takeChain proto.toNat payload)

/-! ## Completions and timeouts (R296, R301, R310) -/

/-- A response with this OP, TAG and STATUS. -/
def RxMsg.isRsp (m : RxMsg) (op : Nat) (tag : BitVec 14) (st : Status) : Bool :=
  m.op == op && m.tag == tag.toNat && m.status == statusCode st

/-- RESULT of a response (R296). -/
def RxMsg.result (m : RxMsg) : Nat := field (m.slots.headD 0).toNat 0 64

/-- The read data that a tag waits for, when its payload flit is there (R293). -/
def State.takeReadData (s : State) (p : Port) (tag : BitVec 14) : State × Option (List Byte) :=
  let x := takeFirst (fun f => protoClass f.proto == 1 && field f.proto.toNat 40 14 == tag.toNat) (s.port p).payWait
  (s.onPort p fun q => { q with payWait := x.2 }, x.1.map (·.payload))

/-- A response that has arrived as the next message of its flit. -/
def W.takeRsp (w : W) (p : Port) (op : Nat) (tag : BitVec 14) (st : Status) (f : W → Nat → W) : W :=
  let m := fun (m : RxMsg) => m.isRsp op tag st
  match w.s.due p m with
  | none => w
  | some x => (f (w.on (·.takeMsg p m)) x.result).settleInbox p

/-- RCMP: a read that is OK completes once its payload flit is there too (R297). -/
def execRcmp (p : Port) (tag : BitVec 14) (st : Status) (e : Env) (s : State) :
    Host.Outcome State Fault Refusal :=
  let w : W := ⟨s, e⟩
  let y := s.takeReadData p tag
  if st ≠ .ok then .next (w.takeRsp p 0x20 tag st fun w _ => w.readAnswer p tag st 0 []).s
  else match y.2 with
    | none => .next s
    | some data =>
      .next (w.takeRsp p 0x20 tag st fun w crcs =>
        (w.on fun s => (s.takeReadData p tag).1).readAnswer p tag st (BitVec.ofNat 64 crcs) data).s

def execWcmp (p : Port) (tag : BitVec 14) (st : Status) (e : Env) (s : State) : Host.Outcome State Fault Refusal :=
  .next ((⟨s, e⟩ : W).takeRsp p 0x21 tag st fun w _ => w.writeAnswer p tag st 0).s

def execAcmp (p : Port) (tag : BitVec 14) (st : Status) (e : Env) (s : State) : Host.Outcome State Fault Refusal :=
  .next ((⟨s, e⟩ : W).takeRsp p 0x22 tag st fun w r => w.writeAnswer p tag st r).s

/-- 8,000 always-on cycles without a response: TIMEOUT (R301). -/
def execRequestTimeout (isRead : Bool) (tag : BitVec 14) (e : Env) (s : State) : Host.Outcome State Fault Refusal :=
  let w : W := ⟨s.timedOut, e⟩
  let find := fun (xs : List Outst) => xs.find? (·.id == tag)
  if isRead then
    match find s.proto.reads with
    | some t => .next (w.endRead t .timeout []).s
    | none => .next s
  else
    match find s.proto.writes with
    | some t => .next (w.failWrite t .timeout).s
    | none => .next s

/-! ## The memory profile outward (R310) -/

/-- An MRD or MWR of the chiplet's own to a stack: 64-byte blocks inside one 256-byte block. -/
def State.stackPost (s : State) (way : Fin 2) (op adr len : Nat) (data : List Byte) : State :=
  let p : Port := fin 6 way.1
  if ((s.port p).state = 2 ∨ (s.port p).state = 3) ∧ adr % 64 = 0 ∧ len % 64 = 0 ∧ 0 < len ∧ adr % 256 + len ≤ 256 then
    s.post { port := p, op := op, atop := 0, addr := adr, len := len, data := data, op0 := 0, op1 := 0, ostr := 0,
             oseq := 0, use_ := .own }
  else s

def execMrd (way : Fin 2) (adr : Nat) (len : Nat) (s : State) : Host.Outcome State Fault Refusal :=
  .next (s.stackPost way 1 adr len [])

def execMwr (way : Fin 2) (adr : Nat) (data : List Byte) (s : State) : Host.Outcome State Fault Refusal :=
  .next (s.stackPost way 2 adr data.length data)

/-! ## Ends of FENCE, WRITE_FLAG and SIGNAL (R363, R475) -/

/-- Eight bytes written by a region's controller (R220). -/
def W.write8 (w : W) (r : Region) (a v : Nat) : W × Status :=
  match w.s.locate a with
  | .control blk off =>
    if ctlAligned off 8 then (w.ctlWrite blk off 8 v, .ok) else (w.accessFault (w.s.unit r) 2 a, .error)
  | _ => w.write (w.s.unit r) a (natToBytes 8 v)

/-- The DBELL of a SIGNAL: a write to this chiplet, or a DBELL sent and answered (R297, R316, R363). -/
def W.signal (w : W) (r : Region) (a v : Nat) : W × Status :=
  match w.s.locate a with
  | .away =>
    let x := w.exit a .write
    match x.2 with
    | .inr st => (x.1, st)
    | .inl y =>
      let z := x.1.askWay y 5 8 [] (BitVec.ofNat 64 v)
      (z.1, z.2.st)
  | _ => w.write8 r a v

/-- A record of a held ring that is over writes, or does not, and retires; the ring goes on. -/
def W.endHold (w : W) (r : Region) (i : RingNo) (f : RecRef) (bs : List Byte) : W :=
  let w0 := w.on fun s => s.onRing r i fun q => { q with hold := none }
  let a := recField bs 128 56
  let v := recField bs 192 64
  let finish := fun (x : W × Status) =>
    if x.2 = .ok then x.1.retirePlain r f codeOk
    else (x.1.commandFault r 5 x.2 f.ring a 0x7FF).retirePlain r f codeMem
  match recOp bs with
  | 6 => w0.retirePlain r f codeOk
  | 7 => finish (w0.write8 r a v)
  | _ => finish (w0.signal r a v)

def execHoldRelease (r : Region) (i : RingNo) (e : Env) (s : State) : Host.Outcome State Fault Refusal :=
  match (s.ring r i).hold with
  | none => .next s
  | some (f, bs) =>
    if 6 ≤ recOp bs ∧ s.holdOver r i f bs ∧ s.regionActs r then
      .next ((⟨s, e⟩ : W).endHold r i f bs).s
    else .next s

end Sys2Proof.Machine
end

