-- ==== Sys2Proof/Machine/Receive.lean ====
section
/-! DEFINITION. FLIT_RECEIVED: a flit from its lanes to the protocol layer (R259, R260, R270-R277, R289, R291-R294),
and capability exchange (R306, R309, R311, R314). -/

namespace Sys2Proof.Machine

/-! ## DATA and CTRL flits (R289, R291-R294, R299) -/

/-- A payload flit leaves by the route of its DST (R37, R293, R299). -/
def State.forwardPayload (s : State) (p : Port) (f : TxFlit) : State :=
  match s.routePort (field f.proto.toNat 57 3) with
  | some q => (s.sendFlit q f).freeFlit p f.cls
  | none => s.freeFlit p f.cls

/-- A payload flit for another chiplet, at a port between RQ-family chiplets (R37, R293). -/
def State.passesOn (s : State) (p : Port) (f : TxFlit) : Bool :=
  !s.proto.fence.getLsbD p.1 && field f.proto.toNat 57 3 != s.pk.id.toNat

/-- An accepted DATA flit (R291-R294, R299): the messages of a message flit wait to be acted on, and a payload
flit waits for its message, or goes on. -/
def W.acceptData (w : W) (p : Port) (f : TxFlit) : W :=
  let kind := protoKind f.proto
  if kind = 1 then
    let w1 := (w.on (·.takeCredits p f.proto)).queueMsgs p (decodeSlots 16 (payloadSlots f.payload))
    w1.on fun s => (if f.exchange then s else s.freeFlit p f.cls).drainPort p
  else if kind = 2 ∧ protoClass f.proto ≠ 3 then
    if w.s.passesOn p f then w.on (·.forwardPayload p f)
    else
      let w1 := w.on (·.onPort p fun q => { q with payWait := q.payWait ++ [f] })
      if protoClass f.proto = 2 then w1 else w1.on (·.freeFlit p f.cls)
  else w.fault 0 { source := 7, cause := 1, region := 0, detail := p.1 }

/-- A CTRL message (R289). -/
def W.control (w : W) (b : BundleNo) (msg : List Byte) : W :=
  let p := bundlePort b
  match sub msg 0 1 with
  | 1 => w.on (·.beginDiag b)
  | 3 => w.takeRetire p (BitVec.ofNat 8 (sub msg 1 1)) (BitVec.ofNat 12 (sub msg 2 2))
  | 4 => w.on (·.takeRetireAck p (BitVec.ofNat 8 (sub msg 1 1)))
  | 5 => w.on (·.takeLpReq b)
  | 6 => w.on (·.takeLpAck b)
  | _ => w

/-! ## Receiving flits (R271-R277, R280) -/

/-- A NAK asked for goes out with an IDLE flit (R270, R275, log 13). -/
def State.nak (s : State) (b : BundleNo) : State :=
  let s1 := s.wantNak b
  if (s1.bundle b).nakDue then s1.sendIdle b else s1

/-- A flit with a bad CRC or a reserved TYPE (R271, R275, R280 step 2, R290, R436). The counts stand while the
bundle is not up. -/
def State.badFlit (s : State) (b : BundleNo) : State :=
  let x := s.bundle b
  let s1 := s.onBundle b fun y => { y with goodRun := 0, sinceNak := y.sinceNak + 1 }
  if x.state ≠ 2 then s1.nak b
  else
    let s2 := (s1.onBundle b fun y => { y with crcErr := y.crcErr + 1, badRun := y.badRun + 1 }).onBundleLife b
      fun y => { y with crcErr := sat64 y.crcErr 1 }
    if 64 ≤ x.badRun + 1 then s2.beginDiag b else s2.nak b

/-- A good DATA flit: accepted where its SEQ is the one expected, and acknowledged; a duplicate is discarded; any
other asks for a replay (R275, R277). -/
def W.takeData (w : W) (b : BundleNo) (seq : BitVec 12) (f : TxFlit) : W :=
  let x := w.s.bundle b
  if seq = x.expSeq then
    let w1 := w.on fun s => s.onBundle b fun y =>
      { y with expSeq := y.expSeq + 1, nakFor := none,
               flitsRx := if y.state = 2 then y.flitsRx + 1 else y.flitsRx }
    let w2 := w1.acceptData (bundlePort b) f
    if (w2.s.bundle b).state = 2 ∨ (w2.s.bundle b).syncing then w2.on (·.sendIdle b) else w2
  else if (x.expSeq - 1 - seq).toNat < 64 then w
  else w.on (·.nak b)

/-- A good flit: first the ACK, then a replay if NAK asks for one, then new flits; then the flit itself, by TYPE
and SEQ (R274-R276). -/
def W.goodFlit (w : W) (b : BundleNo) (head : Nat) (payload : List Byte) : W :=
  let p := bundlePort b
  let seq := BitVec.ofNat 12 (field head 80 12)
  let type := field head 92 4
  let w1 := w.on fun s => (s.onBundle b fun y =>
    { y with badRun := 0, goodRun := y.goodRun + 1, sinceNak := y.sinceNak + 1 }).takeAck b (BitVec.ofNat 12 (field head 68 12))
  let w2 := if testBit head 67 ∧ (w1.s.bundle b).state = 2 then w1.on (·.replayOrDiag b) else w1
  let w3 := w2.on fun s => s.drainPort p
  let f : TxFlit := ⟨BitVec.ofNat 64 (field head 0 64), payload⟩
  if type = 1 then w3.takeData b seq f
  else
    let w4 := if seq ≠ (w3.s.bundle b).expSeq then w3.on (·.nak b) else w3
    if type = 0 then w4.on fun s => (s.takeCredits p f.proto).drainPort p else w4.control b payload

/-- A flit read from its lanes, when VLD frames it and its CRC and TYPE are good (R259, R260, R270, R271, R273;
a flit that VLD does not frame is taken as one with a bad CRC, DEDUCED, log 147). -/
def Bundle.readFlit (x : Bundle) (uis : List (BitVec 36)) : Option (List Byte) :=
  let bytes := decodeUis x.rx x.rxScr uis
  if uis.length = x.rx.uis ∧ framed x.rx.uis uis ∧ crc32c (bytes.take 268) = sub bytes 268 4 ∧
    field (sub bytes 0 12) 92 4 ≤ 2 then some bytes else none

/-- The UI of a flit arrive on a bundle that is up or syncs; the receiver's scramblers advance with every UI
(R260, R272, R275). -/
def execFlitReceived (b : BundleNo) (uis : List (BitVec 36)) (e : Env) (s : State) : Host.Outcome State Fault Refusal :=
  let x := s.bundle b
  if x.state ≠ 2 ∧ !x.syncing then .next s
  else
    let s1 := s.onBundle b fun y => { y with rxScr := scrAfter y.rxScr uis.length }
    match x.readFlit uis with
    | none => .next (s1.badFlit b)
    | some bytes =>
      let w := (⟨s1, e⟩ : W).goodFlit b (sub bytes 0 12) ((bytes.drop 12).take 256)
      if (w.s.bundle b).syncing ∧ 16 ≤ (w.s.bundle b).goodRun then .next (w.s.goUp b) else .next w.s

/-! ## Capability exchange (R306, R309, R311, R314, R319) -/

/-- The profile bit that a port needs of its partner (R306, R309). -/
def portProfile (p : Port) : Nat := if isMemory p then 1 else if isPeer p then 0 else 2

/-- The capability record of a CAP message, in its slots 1 to 3 (R306). -/
def RxMsg.record (m : RxMsg) : List Byte := (m.slots.drop 1).flatMap fun x => natToBytes 16 x.toNat

/-- A partner's capability record taken: HG_PID, HG_PFEAT, CAPACK with the CAP's SRC and TAG (R296, R306, R319). A
chiplet that has its ID settles the port's fence by it (R311, R314). -/
def State.takeCap (s : State) (p : Port) (m : RxMsg) : State :=
  let r := m.record
  let id := place (sub r 5 1) 40 8 + place (sub r 4 1) 32 8 + place (sub r 2 2) 16 16 + sub r 0 2
  let s1 := s.onPort p fun q => { q with partner := r, capGot := true }
  let s2 := { s1 with proto := { s1.proto with
      pid := vmod s1.proto.pid p fun _ => BitVec.ofNat 64 id,
      pfeat := vmod s1.proto.pfeat p fun _ => BitVec.ofNat 32 (sub r 12 4) } }
  (if s2.pk.idValid then s2.setFence else s2).sendFlit p (msgFlit 1 [rspSlot 0x11 m.src.toNat m.tag .ok 0])

/-- A CAP that has arrived; a partner without the port's profile leaves the port down (R306, R309). -/
def execCap (p : Port) (e : Env) (s : State) : Host.Outcome State Fault Refusal :=
  let isCap := fun m : RxMsg => m.op == 0x10
  match s.due p isCap with
  | none => .next s
  | some m =>
    if (s.port p).state ≠ 2 then .next s
    else
      let s1 := (s.takeMsg p isCap).takeCap p m
      if testBit (sub m.record 5 1) (portProfile p) then .next ((⟨s1.drainPort p, e⟩ : W).settleInbox p).s
      else .next ((⟨s1, e⟩ : W).portDown p).s

/-- A CAPACK that has arrived ends the repetition of CAP (R306). -/
def execCapack (p : Port) (s : State) : Host.Outcome State Fault Refusal :=
  let isAck := fun m : RxMsg => m.op == 0x11
  if (s.due p isAck).isNone then .next s
  else
    let s1 := (s.takeMsg p isAck).onPort p fun q => { q with capAcked := q.capAcked || q.capSent }
    .next ((⟨s1.drainPort p, Env.quiet⟩ : W).settleInbox p).s

def execCapRepeatTimer (p : Port) (s : State) : Host.Outcome State Fault Refusal :=
  if (s.port p).state = 2 ∧ (s.port p).capSent ∧ !(s.port p).capAcked then .next (s.sendCap p) else .next s

def execCapTimeout (p : Port) (e : Env) (s : State) : Host.Outcome State Fault Refusal :=
  if (s.port p).state = 2 ∧ (s.port p).capSent ∧ !(s.port p).capAcked then .next ((⟨s, e⟩ : W).portDown p).s
  else .next s

end Sys2Proof.Machine
end

