-- ==== Sys2Proof/Machine/ImageCheck.lean ====
section
/-! DEFINITION. The checks of an image: header, directory, signature and digests (R339, R402), and the static
image check of step 6 (R42, R85, R86, R104, R130, R156, R161, R187, R197, R210, R214, R317, R335, R337). -/

namespace Sys2Proof.Machine

/-! ## Before the image is trusted (R339, R402, R441) -/

/-- Check 1: HDR_CRC, MAGIC, FORMAT and sizes; the log area meets neither the image nor the helper area, the
last 64 KiB of a flash of `density` bytes (R332, R405, R441). -/
def imgHeaderOk (m : Mem) (density : Nat) : Bool :=
  let h := memReadN m 0 256
  let mib := 2 ^ 20
  sub h 252 4 == crc32c (h.take 252) && sub h 0 4 == 0x4D495152 && sub h 4 2 == 1 &&
    decide (1 ≤ imgNsect m) && decide (imgNsect m ≤ 64) && decide (imgSize m ≤ 192 * mib) &&
    decide (imgDirOff m + 48 * imgNsect m ≤ imgSigOff m) && imgSigOff m + imgSigLen m == imgSize m &&
    imgLogOff m % mib == 0 && imgLogSize m % mib == 0 && decide (8 * mib ≤ imgLogSize m) &&
    decide (imgSize m ≤ imgLogOff m) && decide (imgLogOff m + imgLogSize m + 0x10000 ≤ density)

/-- Bytes of the directory (R333). -/
def imgDir (m : Mem) : List Byte := memReadN m (imgDirOff m) (48 * imgNsect m)

/-- No two byte ranges of a list overlap. -/
def disjoint : List (Nat × Nat) → Bool
  | [] => true
  | x :: xs => (xs.all fun y => !overlap x y) && disjoint xs

/-- The sections stand as R333 says: at multiples of 64, wholly before SIG_OFF, without overlap, RCFW at most
256 KiB, and none of the types 1 to 8 twice (log 88). -/
def imgLayoutOk (m : Mem) : Bool :=
  let xs := imgSects m
  (xs.all fun x => x.off % 64 == 0 && decide (x.off + x.len ≤ imgSigOff m) && (x.type != 5 || decide (x.len ≤ 2 ^ 18))) &&
    disjoint ((xs.filter fun x => x.len != 0).map fun x => (x.off, x.len)) &&
    (List.range 8).all fun t => decide ((xs.filter fun x => x.type == t + 1).length ≤ 1)

/-- Check 2: DIR_CRC, and the directory's layout (R333, R339). -/
def imgDirOk (m : Mem) : Bool := memNat m 44 4 == crc32c (imgDir m) && imgLayoutOk m

/-- Check 3: tests 1 to 3 of R402. -/
def imgSigned (m : Mem) : Bool :=
  let c := ownerSect m
  sha256 (certRootPub c) == natToBytes 32 Config.rootHash.toNat &&
    hssVerify (certRootPub c) (c.take 256) ((c.drop 256).take (sub c 4 4)) &&
    hssVerify (certOwnerPub c) (memReadN m 0 256 ++ imgDir m) (memReadN m (imgSigOff m) (imgSigLen m))

/-- Check 4: TYPE of the first section whose DIGEST differs. -/
def imgBadDigest (m : Mem) : Option Nat :=
  ((imgSects m).find? fun x => sha256 (sectBytes m x) != x.digest).map (·.type)

/-! ## Charts: frame, reserved fields and codes (R184, R214) -/

/-- A reserved field holds 0. -/
def zero (x lo w : Nat) : Bool := field x lo w == 0

/-- `k` records of `n` bytes from an offset. -/
def recs (bs : List Byte) (off n k : Nat) : List Nat := (List.range k).map fun i => sub bs (off + n * i) n

/-- A section of `n` bytes at an offset that is a multiple of 32, inside the chart (R184). -/
def fits (bs : List Byte) (off n : Nat) : Bool := off % 32 == 0 && decide (off + n ≤ bs.length)

/-- Offset that the header holds from bit `lo` (R184). -/
def chartOff (bs : List Byte) (lo : Nat) : Nat := field (sub bs 0 64) lo 32

/-- Every section lies inside the chart (R184). -/
def chartFramed (bs : List Byte) (c : Chart) : Bool :=
  let v := chartOff bs 480
  decide (64 ≤ bs.length) && fits bs (chartOff bs 288) (8 * c.positions.length) &&
    fits bs (chartOff bs 320) (32 * c.counters.length) && fits bs (chartOff bs 352) 128 &&
    fits bs (chartOff bs 384) 512 && fits bs (chartOff bs 416) 128 &&
    fits bs (chartOff bs 448) (80 * c.patterns.length) &&
    match c.vprog with
    | none => true
    | some p => fits bs v (32 + 32 * p.npass + if p.constSrc = 15 then 0 else 2048)

/-- Reserved fields of the header and its tables hold 0 (R184, R186, R191, R194, R196, R201, R203, R205, R240). -/
def chartReserved (bs : List Byte) (c : Chart) : Bool :=
  let h := sub bs 0 64
  let loops := chartOff bs 352
  zero h 272 3 && zero h 128 108 && zero h 16 48 && zero h 12 2 &&
    zero c.mode 30 2 && zero c.mode 14 2 && zero c.mode 0 4 && zero c.epi 4 12 &&
    ((recs bs (chartOff bs 288) 8 c.positions.length).all fun x => zero x 41 23 && zero x 29 3 && zero x 14 2) &&
    ((recs bs (chartOff bs 384) 32 16).all fun x => zero x 240 16 && zero x 16 48 && zero x 0 7) &&
    ((recs bs (chartOff bs 416) 16 8).all fun x => zero x 66 6) &&
    ((recs bs loops 32 3).all fun x => zero x 68 28 && zero x 15 49) && zero (sub bs (loops + 96) 32) 168 88 &&
    ((recs bs (chartOff bs 320) 32 c.counters.length).all fun x => zero x 16 112 && zero x 13 1) &&
    ((recs bs (chartOff bs 448) 80 c.patterns.length).all fun x =>
      zero x 28 100 && zero x 22 2 && zero x 16 4 && zero (x / 2 ^ 128) 0 6)

/-- A format code of R41. -/
def fmtKnown (code : Nat) : Bool := (Fmt.ofCode code).isSome

/-- No reserved code, counts in range, CHART_NO of its entry (R42, R85, R184, R194, R205, R214, R240). -/
def chartCodes (bs : List Byte) (n : Nat) (c : Chart) : Bool :=
  let h := sub bs 0 64
  c.no == n && decide (1 ≤ c.patterns.length) && decide (c.positions.length ≤ 512) &&
    decide (c.counters.length ≤ 512) && decide (c.expG ≤ 16) && decide (field h 264 3 ≤ 5) &&
    decide (field h 268 3 ≤ 5) && (modeNum c.mode).isSome && modeChainPos c.mode == 0 && modeQuad c.mode == 0 &&
    !modeBscale c.mode && modeExpand c.mode != 3 && epiAct c.epi != 3 && epiBiasSel c.epi != 3 &&
    (c.bounds.all fun b => b.src != 3) &&
    (match c.bounds[5]? with | some b => b.src == 0 && b.value == 0 | none => false) &&
    (c.counters.all fun e => e.mode != 3) &&
    (c.args.all fun a => fmtKnown a.fmt) &&
    c.patterns.all fun p =>
      fmtKnown p.ctx.fmt && p.ctx.op != 3 && p.ctx.mc != 3 && decide (p.ctx.state ≤ 3) && decide (p.ctx.cause ≤ 8)

/-! ## Charts: formats (R58-R60, R86, R104, R210, R214) -/

/-- N4 or N8. -/
def isWeight (code : Nat) : Bool := code == 5 || code == 6

/-- Operand, weight and output formats; STRICT with a chain length of 1 (R58-R60, R86, R104, R214). -/
def chartFormats (c : Chart) : Bool :=
  let a := modeAFmt c.mode
  let b := modeBFmt c.mode
  let ex := modeExpand c.mode
  let w := if modeWside c.mode then b else a
  let standard := modeNum c.mode == some .standard
  let operand := fun f => f == 0 || f == 1 || f == 2 || (f == 3 && !standard) || isWeight f
  operand a && operand b && decide (epiOutFmt c.epi ≤ 4) && !(isWeight a && isWeight b) &&
    (!isWeight a || (ex != 0 && !modeWside c.mode)) && (!isWeight b || (ex != 0 && modeWside c.mode)) &&
    (ex == 0 || isWeight w) && (ex != 2 || w == 5) &&
    (modeNum c.mode != some .strict || shapeChain (modeShape c.mode) == 1)

/-- ACCUM against R210. -/
def chartAccum (c : Chart) : Bool :=
  let ok := fun f => f == 2 || f == 3
  !c.accum || match c.vprog with
    | none => ok (epiOutFmt c.epi)
    | some v => (!v.out0En || ok v.out0Fmt) && (!v.out1En || ok v.out1Fmt)

/-! ## Charts: groups, counters and loops (R187, R197, R205, R214) -/

/-- Groups hold the positions of their shape and name one counter; clusters are distinct (R187). -/
def chartGroups (c : Chart) : Bool :=
  let combos := shapeCombos (modeShape c.mode)
  let key := fun (p : Position) => (p.chiplet, p.region, p.cluster)
  (c.groups.all fun g =>
    let ps := c.members g
    ps.length == combos.length && (combos.all fun q => ps.any fun p => p.chainPos == q.1 && p.quad == q.2) &&
      (((ps.map fun p => (p.ctrChiplet, p.counter)).eraseDups).length == 1)) &&
    ((c.positions.map key).eraseDups.length == c.positions.length)

/-- Counters named exist, none in two entries (R214). -/
def chartCounters (c : Chart) : Bool :=
  let cs := c.counters.map fun e => (e.chiplet, e.counter)
  (c.positions.all fun p => cs.contains (p.ctrChiplet, p.counter)) && cs.eraseDups.length == cs.length

/-- Extents and orders (R196, R197). -/
def chartLoops (c : Chart) : Bool :=
  let s := modeShape c.mode
  let dims := [0, 1, 2, 3, 4]
  let perm := fun (l : Loop) => dims.all l.order.contains
  let covers := fun (o i : Loop) => dims.all fun d => decide (1 ≤ o.ext d) && o.ext d % i.ext d == 0
  c.l1.tm == shapeRows s && c.l1.tn == shapeCols s && c.l1.tb1 == 1 && c.l1.tb2 == 1 && c.l1.tk % 32 == 0 &&
    decide (32 ≤ c.l1.tk) && decide (c.l1.tk ≤ 65536) && covers c.l2 c.l1 && covers c.l3 c.l2 && perm c.l1 && perm c.l2 &&
    perm c.l3 && decide (1 ≤ c.l3.slots) && decide (c.l3.slots ≤ 8) && decide (c.l2.slots ≤ 8)

/-! ## Charts: slots and patterns (R190, R209, R214) -/

/-- The argument slots in use (R190). -/
def slotsUsed (c : Chart) : List Nat :=
  let on := fun (b : Bool) (i : Nat) => if b then [i] else []
  [0, 1, 2] ++ on (epiRscale c.epi) 3 ++ on (epiCscale c.epi) 4 ++ on (epiBiasSel c.epi != 0) 5 ++
    on (modeExpand c.mode == 2) 7 ++ on (c.service && bsSize c.bsA != 0) 8 ++ on (c.service && bsSize c.bsB != 0) 9 ++
    match c.vprog with
    | none => []
    | some v => on (v.out1En && !v.pair) 10 ++ on v.auxEn 11 ++ on v.sideEn 12 ++ on (v.constSrc != 0) 13

/-- FMT of a slot. -/
def Chart.slotFmt (c : Chart) (i : Nat) : Nat := (c.args.getD i (ArgEntry.ofNat 0)).fmt

/-- A slot is PRESENT. -/
def Chart.slotOn (c : Chart) (i : Nat) : Bool := (c.args.getD i (ArgEntry.ofNat 0)).present

/-- Slots used and named are present; write-backs copy outputs, once each; formats agree (R214). -/
def chartSlots (c : Chart) : Bool :=
  let wb := (c.patternsAt 3).map (·.arg)
  (slotsUsed c).all c.slotOn && (c.patterns.all fun p => c.slotOn p.arg) &&
    (wb.all fun a => a == 2 || a == 10) && wb.eraseDups.length == wb.length &&
    modeAFmt c.mode == c.slotFmt 0 && modeBFmt c.mode == c.slotFmt 1 &&
    match c.vprog with
    | none => c.slotFmt 2 == epiOutFmt c.epi
    | some v => c.slotFmt 2 == v.out0Fmt && (!v.out1En || v.pair || c.slotFmt 10 == v.out1Fmt)

/-! ## Charts: areas (R159, R197, R201, R214) -/

/-- The shoal areas: L2 slots, the areas of R201 in their slots, and the spill area of R159. -/
def shoalAreas (c : Chart) : List (Nat × Nat) :=
  let rows := fun code n => match Fmt.ofCode code with
    | some f => 128 * rowBytes f n
    | none => 0
  let out := fun code => rows code (if code = 4 then 64 else 128)
  let a := c.l1addr
  let tile := match c.vprog with
    | none => [(a.epiOff, if epiDest c.epi then 0 else rows (epiOutFmt c.epi) 128)]
    | some v =>
      [(a.out0Off, if v.out0En then out v.out0Fmt else 0), (a.out1Off, if v.out1En then out v.out1Fmt else 0),
       (a.auxOff, if v.auxEn then 128 * 512 else 0), (a.sideOff, if v.sideEn then 512 else 0),
       (a.constOff, if v.constSrc = 0 then 0 else 2048)]
  let slots := if a.slotStride = 0 then tile else tile ++ tile.map fun x => (x.1 + a.slotStride, x.2)
  let spill := match c.vprog with
    | some v => [(v.spillSlot * 0x40000, if 2 ≤ v.npass then 0x40000 else 0)]
    | none => []
  (((c.l2.buf, c.l2.slots * slotBytes c 1) :: slots) ++ spill).filter fun x => x.2 != 0

/-- L3 slots within 128 MiB; shoal areas disjoint and within 4 MiB (R214). -/
def chartAreas (c : Chart) : Bool :=
  decide ((l3Area c).1 + (l3Area c).2 ≤ 2 ^ 27) && disjoint (shoalAreas c) &&
    (shoalAreas c).all fun x => decide (x.1 + x.2 ≤ 0x400000)

/-! ## Vector programs (R156, R161, R165, R167, R178) -/

/-- A stage word that is NOP. -/
def StageWord.isNop (w : StageWord) : Bool := w.op == 0

/-- An FDIV or FSQRT stands where R178 allows it. -/
def divPlaced (v : VProg) (p s : Nat) (w : StageWord) : Bool :=
  let pass := fun i => v.passes.getD i []
  v.strict && decide (p + 2 < v.npass) && ((pass p).drop (s + 1)).all (·.isNop) && (pass (p + 1)).all (·.isNop) &&
    (pass (p + 2)).all (·.isNop) && [p, p + 1].all fun i =>
      let b := v.carry.getD i 0
      testBit b 3 && field b 0 3 == w.dst && (!testBit b 7 || field b 4 3 != w.dst)

/-- A stage word that the check accepts: codes, formats, RM, fields not used, placement (R161, R164-R167,
R178). -/
def stageOk (v : VProg) (p s : Nat) (w : StageWord) : Bool :=
  match VOp.ofCode w.op, Fmt.ofCode w.fmt with
  | some op, some f =>
    op.accepts f && (w.rm == 0 || (v.strict && f == .f32 && op.takesRm)) && (op != .nop || w.sa == 0) &&
      (op.usesB || (if op = .cvt then fmtKnown w.sb else w.sb == 0)) && (op.usesC || w.sc == 0) &&
      w.shsel != 3 && (w.shsel == 0 || decide (w.shuf ≤ 0xD)) &&
      ((op != .fdiv && op != .fsqrt) || divPlaced v p s w)
  | _, _ => false

/-- A vector program that the check accepts; `h` is its header (R157, R161). -/
def vprogOk (h : Nat) (v : VProg) : Bool :=
  zero h 80 48 && zero h 40 24 && zero h 4 9 && fmtKnown v.out0Fmt && fmtKnown v.out1Fmt && fmtKnown v.auxFmt &&
    (!v.vlSrc || (decide (1 ≤ v.vlConst) && decide (v.vlConst ≤ 1024))) && (v.out0En || v.out1En) &&
    (!v.pair || (v.out1En && v.out1Fmt == 4)) &&
    (List.range v.npass).all fun p => (List.range 8).all fun s =>
      match (v.passes.getD p [])[s]? with
      | some w => stageOk v p s w
      | none => false

/-- DEST selects the tile queue exactly when there is a program, and the program passes (R156, R161). -/
def chartProgram (bs : List Byte) (c : Chart) : Bool :=
  match c.vprog with
  | none => !epiDest c.epi
  | some v => epiDest c.epi && vprogOk (sub bs (chartOff bs 480) 32) v

/-! ## The static image check (R341 step 6) -/

/-- Bytes of the ACTTAB section; 0 without it. -/
def acttabLen (m : Mem) : Nat :=
  match imgSect m 8 with
  | some s => s.len
  | none => 0

/-- Chart `n` of the image passes. -/
def chartOk (m : Mem) (n off len : Nat) : Bool :=
  let bs := memReadN m off len
  let c := Chart.ofBytes bs
  let inSect := match imgSect m 7 with
    | some s => decide (off + len ≤ s.off + s.len)
    | none => false
  inSect && chartFramed bs c && chartReserved bs c && chartCodes bs n c && chartFormats c && chartAccum c &&
    chartGroups c && chartCounters c && chartLoops c && chartSlots c && chartAreas c && chartProgram bs c &&
    (epiAct c.epi != 2 || decide (2080 * (epiActTable c.epi + 1) ≤ acttabLen m)) &&
    c.positions.all fun p => topoPresent (topoEntry m p.chiplet)

/-- The first chart that fails. -/
def chartFault (m : Mem) : Option Nat :=
  firstBelow 4096 fun n => match chartPlace m n with
    | some p => !chartOk m n p.1 p.2
    | none => false

/-- An activation table passes (R130). -/
def tableOk (t : ActTable) : Bool :=
  let nan := fun x => (f32Val x).isNan
  let used := t.segs.take t.n
  let ls := (used.drop 1).map fun x => f32Val x.l
  decide (1 ≤ t.n) && decide (t.n ≤ 64) && ls.all XVal.isFinite && ((ls.zip (ls.drop 1)).all fun x => x.1.lt x.2) &&
    !nan t.posInf && !nan t.negInf &&
    used.all fun x => !(nan x.o || nan x.c0 || nan x.c1 || nan x.c2 || nan x.c3)

/-- The first activation table that fails; past the last one when the length does (R130). -/
def tableFault (m : Mem) : Option Nat :=
  let n := acttabLen m
  if n % 2080 ≠ 0 ∨ 532480 < n then some (n / 2080)
  else firstBelow (n / 2080) fun i => !tableOk (imgTable m i)

/-- A route from `i` leads to `d` in at most `fuel` hops, without a loop (R335). -/
def topoReaches (m : Mem) (d : Nat) : Nat → Nat → List Nat → Bool
  | 0, i, _ => i == d
  | fuel + 1, i, seen =>
    i == d || match (topoStep m i d).bind (topoNext m i) with
      | some j => !seen.contains j && topoReaches m d fuel j (j :: seen)
      | none => false

/-- The chiplets along a PATH, hop by hop; none where a hop leads nowhere (R335). -/
def topoWalk (m : Mem) (e : Nat) : Nat → Option Nat
  | 0 => some 0
  | h + 1 => (topoWalk m e h).bind fun i => topoNext m i (topoHop e h)

/-- Entry `i` of the topology section passes (R334, R335). -/
def topoOk (m : Mem) (i : Nat) : Bool :=
  let e := topoEntry m i
  zero e 100 4 && zero e 8 47 && zero e 3 3 && field e 0 3 == i &&
    (i != 0 || (topoPresent e && !topoOptional e && topoPathLen e == 0)) &&
    (!topoPresent e ||
      (((List.range 7).all fun p => decide (topoKind e p ≤ 4)) && topoWalk m e (topoPathLen e) == some i &&
        ((topoIds m).all fun j => j == i || topoAt (topoEntry m j) != topoAt e) &&
        ((topoIds m).all fun d => topoReaches m d 7 i [i])))

/-- The first topology entry that fails. -/
def topoFault (m : Mem) : Option Nat := firstBelow 8 fun i => !topoOk m i

/-! ## Settings and windows (R317, R337) -/

/-- The settings section's entries, 16 bytes each as a number (R337). -/
def imgSettings (m : Mem) : List Nat :=
  match imgSect m 6 with
  | some s => recs (sectBytes m s) 0 16 (s.len / 16)
  | none => []

/-- VALUE, CHIP_MASK, BLOCK, OFFSET and W64 of an entry (R337). -/
def setValue (x : Nat) : Nat := field x 64 64
def setChip (x i : Nat) : Bool := testBit x (56 + i)
def setBlock (x : Nat) : Nat := field x 48 8
def setOffset (x : Nat) : Nat := field x 32 16
def setWide (x : Nat) : Bool := testBit x 31

/-- Width in bits of a register of which every field is RWL; none for another (R252, R253, R290, R319, R396,
R433). -/
def rwlWidth (blk off : Nat) : Option Nat :=
  if 64 ≤ blk ∧ blk < 72 then (if off = 0x8008 ∨ off = 0x8800 then some 32 else none)
  else if blk = 73 then
    if 0x1000 ≤ off ∧ off < 0x1E00 then
      match off % 0x20 with
      | 0 => some 32
      | 8 | 0x10 => some 64
      | _ => none
    else none
  else if (blk, off) ∈ [(72, 0), (75, 0), (76, 4), (78, 0), (78, 0x10)] then some 32
  else none

/-- A settings entry passes (R337). -/
def settingOk (x : Nat) : Bool :=
  zero x 0 31 && rwlWidth (setBlock x) (setOffset x) == some (if setWide x then 64 else 32)

/-- A settings entry writes window `w` of port `p`. -/
def setsWindow (x p w : Nat) : Bool := setBlock x == 73 && setOffset x / 0x20 == 0x80 + 16 * p + w

/-- A window of chiplet `id` as the settings leave it (R319, R337). -/
def setWindow (m : Mem) (id p w : Nat) : Window16 :=
  ((imgSettings m).filter fun x => setsWindow x p w && setChip x id).foldl
    (fun a x => a.write (setOffset x % 0x20) (setValue x) true true) Window16.reset

/-- Control space on this or another chiplet meets `[a, a + n)`, an aligned power of two of at most 2^51 bytes
(R219, R317). -/
def meetsControl (a n : Nat) : Bool := testBit a 51 && overlap (field a 0 51, n) (0x300000000, 0x1000000)

/-- A window of port `p` on a chiplet whose topology entry is `e` passes (R317). An Off window has nothing to
break but its place. -/
def windowOk (e p : Nat) (x : Window16) : Bool :=
  let n := 2 ^ x.size.toNat
  x.type == 0 || (decide (2 ≤ p) && x.base.toNat % n == 0 && x.target.toNat % n == 0 &&
    decide (12 ≤ x.size.toNat) && decide (x.size.toNat ≤ 51) && (x.type != 3 || x.size == 20) &&
    (x.type != 1 || (!testBit x.target.toNat 55 && !meetsControl x.target.toNat n)) &&
    (x.type != 2 || topoKind e p != 1))

/-- A chiplet, port and window that break R317. -/
def windowFault (m : Mem) : Option (Nat × Nat) :=
  ((topoIds m).flatMap fun i => (List.range 112).map fun k => (i, k)).find? fun x =>
    !windowOk (topoEntry m x.1) (x.2 / 16) (setWindow m x.1 (x.2 / 16) (x.2 % 16))

/-- The first settings entry that fails; for a window, the last entry that writes it. -/
def settingsFault (m : Mem) : Option Nat :=
  let xs := imgSettings m
  match firstBelow xs.length fun i => !settingOk (xs.getD i 0) with
  | some i => some i
  | none => (windowFault m).map fun x =>
    ((List.range xs.length).filter fun i => setsWindow (xs.getD i 0) (x.2 / 16) (x.2 % 16) &&
      setChip (xs.getD i 0) x.1).getLastD 0

/-- The static image check: DETAIL of IMG_CHECK when it fails (R347). Charts first, then activation tables,
topology, settings. -/
def imageFault (m : Mem) : Option Nat :=
  let at_ := fun (type : Nat) (x : Option Nat) => x.map fun i => place type 12 4 + place i 0 12
  (at_ 7 (chartFault m)).orElse fun _ => (at_ 8 (tableFault m)).orElse fun _ =>
    (at_ 1 (topoFault m)).orElse fun _ => at_ 6 (settingsFault m)

end Sys2Proof.Machine
end

