-- ==== Sys2Proof/Machine/Startup.lean ====
section
/-! DEFINITION. Rails, reset, roles and the start-up sequence: the commands of 10_package_startup (R320-R349,
R476), with what R401-R413, R440 and R444 place in step 12. -/

namespace Sys2Proof.Machine

/-! ## Clocks and reset (R322, R326, R327) -/

/-- Start-up registers passed through `f`. -/
def State.onPk (s : State) (f : Pk → Pk) : State := { s with pk := f s.pk }

/-- Every bundle of the chiplet. -/
def allBundles : List BundleNo := (List.range 82).map (fin 81)

/-- Every port of the chiplet. -/
def allPorts : List Port := (List.range 7).map (fin 6)

/-- The forwarded clocks of all ports driven or stopped (R257, R322, R326). -/
def State.driveClocks (s : State) (on : Bool) : State :=
  (allBundles.foldl (fun s b => if on then s.drive b else s.emit (.clock b false)) s).onPk fun p => { p with tree := on }

/-- The bundles of all ports begin to train (R265 step 1). -/
def State.beginTraining (s : State) : State :=
  let s1 := s.driveClocks true
  { s1 with link := { s1.link with
      bundles := s1.link.bundles.map fun b => { b with state := 1, step := 1, why := .training },
      ports := s1.link.ports.map fun p => { p with state := 1 } } }

/-- Reset: everything is abandoned but what the always-on domain and the seed latch keep (R327, R404, R413,
R422, R433, R440). A chiplet in reset drives no clock and no pin. -/
def State.toReset (s : State) : State :=
  let s1 := if s.pk.tree then s.driveClocks false else s
  let s2 := if s.vault.driving then s1.emit (.alarmN false) else s1
  let s3 := if s.power.therm then s2.emit (.thermN false) else s2
  { State.reset with
    pk := { Pk.reset with
      stepping := s.pk.stepping, strap := s.pk.strap, rstLow := s.pk.rstLow, pwrLow := s.pk.pwrLow },
    sec := { Sec.reset with alarm := s.sec.alarm, erased := s.sec.erased, eraseMask := s.sec.eraseMask },
    vault := { Vault.reset with
      latch := s.vault.latch, puf := s.vault.puf, pufFresh := s.vault.pufFresh, btOff := s.vault.btOff, serial := s.vault.serial,
      blockHeld := s.vault.blockHeld, drbg := s.vault.drbg },
    life := { Life.reset with counts := s.life.counts, kept := s.life.kept, fresh := s.life.fresh },
    outbox := s3.outbox, freeCtr := s.freeCtr, pending := s.pending }

/-- The rails ramp up: the chiplet is held in reset, and the power-on detector marks the PUF array fresh when
VDD_BT was off (R404), which then holds another power-up state (R403). -/
def execPowerUp (s : State) : Host.Outcome State Fault Refusal :=
  if s.power.st = .off then
    let s1 := s.toReset
    .next { s1 with
      pk := { s1.pk with rstLow := true },
      vault := { s1.vault with
        pufFresh := s1.vault.pufFresh || s1.vault.btOff, btOff := false,
        puf := if s1.vault.btOff then s1.vault.puf + 1 else s1.vault.puf } }
  else .next s

/-- Rails are removed: the chiplet is in Off. What VDD_AO and VDD_BT keep goes with them (R404, R422, R440,
R459). -/
def execPowerLoss (ao bt : Bool) (s : State) : Host.Outcome State Fault Refusal :=
  let s1 := s.toReset
  let s2 := { s1 with power := { s1.power with st := .off }, pk := { s1.pk with rstLow := true, pwrLow := true } }
  let s3 := if ao then
      { s2 with life := Life.reset, sec := Sec.reset, vault := { s2.vault with blockHeld := 0 } }
    else s2
  .next (if bt then { s3 with vault := { s3.vault with latch := none, btOff := true } } else s3)

/-- RST_N asserts, or PWRGOOD falls (`pwrgood`), which makes the next start a cold one. On a member both pins are
ignored (R320, R321, R326). -/
def execResetAssert (pwrgood : Bool) (s : State) : Host.Outcome State Fault Refusal :=
  if s.pk.strap = 0 ∨ s.power.st = .off then .next s
  else .next (s.toReset.onPk fun p => { p with rstLow := true, pwrLow := p.pwrLow || pwrgood })

/-- The upstream clock has stopped after an LP_ACK: no loss (R326). -/
def State.upstreamAsleep (s : State) : Bool :=
  (portBundles (fin 6 s.pk.upPort.toNat)).any fun b => (s.bundle b).state == 4

/-- No forwarded clock on the upstream port for 10 µs (R326). -/
def execUpstreamClockLoss (s : State) : Host.Outcome State Fault Refusal :=
  if s.pk.tree ∧ !s.pk.lead ∧ !s.upstreamAsleep then .next s.toReset else .next s

/-! ## Roles (R31, R320-R330, R422, R476) -/

/-- The chiplet is the lead of this start; a cold start clears the alarm (R321, R422). -/
def State.asLead (s : State) (acting : Bool) : State :=
  let s1 := s.onPk fun p => { p with lead := true, acting := acting, phase := .starting }
  if s.pk.cold then s1.clearAlarm.count 1 1
  else s1

/-- The chiplet leaves reset: AO_CC starts, and the departure is counted (R396, R435). -/
def State.leaveReset (s : State) : State := ({ s with ao := { s.ao with cc := 0 } }).count 0 1

/-- RST_N deasserts with PWRGOOD high: the strap is sampled, once, and the start is cold when PWRGOOD has been low
since the previous one. A member waits for a clock, a standby lead too, and a chiplet strapped 0b11 joins no
package. An Alarmed lead stops at step 1 of a warm start, and drives no tree (R31, R321, R328, R341, R476). -/
def execRstNDeassert (strap : BitVec 2) (vct : Nat) (s : State) : Host.Outcome State Fault Refusal :=
  if s.pk.phase ≠ .inReset ∨ s.power.st = .off ∨ !s.pk.rstLow then .next s
  else
    let s1 := s.onPk fun p => { p with strap := strap, rstLow := false }
    if strap = 0 then .next s1
    else
      let cold := s.pk.pwrLow
      let s2 := ({ s1 with site := { s1.site with vct := vct } }.onPk fun p =>
        { p with cold := cold, pwrLow := false }).leaveReset
      match strap.toNat with
      | 1 => if !cold && s.alarmed then .next (s2.onPk fun p => { p with lead := true, phase := .stopped })
             else .next (s2.asLead false)
      | 2 => .next (s2.onPk fun p => { p with phase := .standbyWait })
      | _ => .next (s2.onPk fun p => { p with phase := .stopped })

/-- 1,000 ms without a forwarded clock: the standby lead acts as lead when its REFCLK is present. An Alarmed one
never does so in a warm start: it stops (R328, R476). -/
def execStandbyTimeout (refclk : Bool) (s : State) : Host.Outcome State Fault Refusal :=
  if s.pk.phase ≠ .standbyWait ∨ !refclk then .next s
  else if !s.pk.cold && s.alarmed then .next (s.onPk fun p => { p with phase := .stopped })
  else .next (s.asLead true)

/-- A halt that yields to a later clock, on a strapped lead that has not acted for another (R329, R347). -/
def State.yields (s : State) : Bool :=
  s.pk.phase == .halted && s.pk.lead && s.pk.strap == 1 && !s.alarmed && [2, 4, 5].contains s.pk.halt.code.toNat

/-- A forwarded clock makes this chiplet a member (R322, R327, R329, R330). -/
def State.takesClock (s : State) : Bool :=
  s.power.st != .off && !s.pk.tree && match s.pk.phase with
    | .inReset => !s.pk.rstLow
    | .standbyWait => true
    | .starting => s.pk.lead
    | .halted => s.yields
    | .stopped | .running => false

/-- The upstream port is chosen, the PLL locks to it, and all clocks are driven (R322). A lead that yields with
FLASH or IMG_FORMAT holds no mirror log (R445). -/
def execForwardedClockArrival (ports : List Port) (s : State) : Host.Outcome State Fault Refusal :=
  match (allPorts.filter fun p => isPeer p && ports.contains p).head? with
  | none => .next s
  | some p =>
    if !s.takesClock then .next s
    else
      let s1 := if s.pk.phase = .inReset then s.leaveReset else s
      let bad := s.pk.phase == .halted && s.pk.halt.code != 2
      let s2 := { s1 with life := { s1.life with mirrorOff := bad } }.onPk fun k =>
        { k with phase := .starting, step := 7, lead := false, acting := false, yielded := k.strap == 1,
                 halt := Pk.reset.halt, upPort := BitVec.ofNat 4 p.1, pllLock := true, cold := false }
      .next s2.beginTraining

/-! ## Steps 1 to 7: the lead (R339, R341) -/

/-- A step of R341 is completed. -/
def W.done (w : W) (n : Nat) : W := w.on (·.onPk fun p => { p with step := BitVec.ofNat 5 n })

/-- A halt that this chiplet meets (R346). -/
def W.haltHere (w : W) (code detail : Nat) : W := w.halt w.s.pk.id code detail

/-- A halt whose DETAIL is ID and a byte (R347). -/
def W.haltAt (w : W) (code low : Nat) : W := w.haltHere code (place w.s.pk.id.toNat 8 3 + low)

/-- A signature test fails: IMG_SIG, and alarm SIGNATURE (R402). -/
def W.sigFail (w : W) : W := (w.haltHere 6 0).ownAlarm 4

/-- What a flash holds, byte by byte. -/
def flashOf (cells : List (Nat × Byte)) : Mem := cells.foldl (fun m c => memWrite m c.1 c.2) []

/-- The image that a flash or a share holds: bytes 0 to IMG_SIZE - 1 (R332). -/
def imageOf (cells : List (Nat × Byte)) : Mem :=
  let m := flashOf cells
  m.filter fun c => decide (c.1 < max 256 (imgSize m))

/-- The log area that a flash holds, bytes inverted (R441). -/
def logOf (cells : List (Nat × Byte)) : Mem :=
  let m := flashOf cells
  let off := imgLogOff m
  (cells.filter fun c => decide (off ≤ c.1) && decide (c.1 < off + imgLogSize m)).foldl
    (fun l c => memWrite l (c.1 - off) (~~~c.2)) []

/-- The image kept. -/
def State.withImage (s : State) (m : Mem) : State := { s with site := { s.site with image := m } }

/-- The log of the chiplet's own flash kept (R444, R445). -/
def State.withLog (s : State) (cells : List (Nat × Byte)) : State :=
  { s with life := { s.life with log := logOf cells, logSize := imgLogSize (flashOf cells) } }

/-- The lead keeps image and log of its flash. -/
def State.takeFlash (s : State) (cells : List (Nat × Byte)) : State := (s.withImage (imageOf cells)).withLog cells

/-- Steps 1 to 7. -/
def W.leadStep (w : W) (e : StartEnv) : W :=
  let m := w.s.site.image
  match w.s.pk.step.toNat with
  | 0 => if e.romOk then w.done 1 else w.haltHere 1 0
  | 1 =>
    if !e.refclkOk then w.haltHere 2 0
    else if !e.pllLock then w
    else (w.on fun s =>
      { s with pk := { s.pk with refclkOk := true, pllLock := true, aoTrimmed := true },
               ao := { s.ao with trim := e.trim } }).done 2
  | 2 =>
    if !e.flashOk || !e.readOk then w.haltHere 4 0
    else (w.on fun s =>
      (if helperCutShort (flashOf e.flash) e.density then s.emit (.erased 0) else s).takeFlash e.flash).done 3
  | 3 =>
    if !e.readOk then w.haltHere 4 0
    else if !imgHeaderOk m e.density then w.haltHere 5 0
    else if !imgDirOk m then w.haltHere 5 0xFFFF
    else if !imgSigned m then w.sigFail
    else w.done 4
  | 4 =>
    if !e.readOk then w.haltHere 4 0
    else match imgBadDigest m with
      | some t => w.haltHere 5 t
      | none => w.done 5
  | 5 => match imageFault m with
    | some d => w.haltHere 7 d
    | none => w.done 6
  | _ => (w.on (·.beginTraining)).done 7

/-! ## Steps 8 to 11: ports, names, capabilities, stacks (R308, R311, R342-R345) -/

/-- Every port has settled its training (R265 step 9). -/
def State.trained (s : State) : Bool := allPorts.all fun p => (s.port p).state != 1

/-- Every port that is up has ended its capability exchange (R306). -/
def State.exchanged (s : State) : Bool :=
  allPorts.all fun p => (s.port p).state != 2 || ((s.port p).capGot && (s.port p).capAcked)

/-- This chiplet as discovery reports it (R342). -/
def State.self (s : State) : Found :=
  { id := s.pk.id, stepping := s.pk.stepping, grade := s.pk.grade, strap := s.pk.strap,
    ports := (allPorts.filter fun p => (s.port p).state == 2 && (s.port p).capGot).map fun p => (p, (s.port p).partner) }

/-- PK_STEPS: the stepping at each ID named (R352). -/
def stepsOf (fs : List Found) : W64 :=
  BitVec.ofNat 64 (fs.foldl (fun n f => setField n (8 * f.id.toNat) 8 f.stepping.toNat) 0)

/-- Present IDs in the order of discovery, the lead left out (R342). -/
def discoveryOrder (m : Mem) : List Nat :=
  (List.range 8).flatMap fun len => (topoIds m).filter fun i => i != 0 && topoPathLen (topoEntry m i) == len

/-- Where the PATH of a missing ID breaks: the last chiplet on it that holds an ID, and its port (R347). -/
def missingAt (m : Mem) (named : List Nat) (id : Nat) : Nat × Nat :=
  let e := topoEntry m id
  let at_ := fun h => (topoWalk m e h).getD 0
  let h := (firstBelow (topoPathLen e) fun h => !named.contains (at_ (h + 1))).getD (topoPathLen e - 1)
  (at_ h, 2 + topoHop e h)

/-- Step 9 on the lead: IDs are given along the PATHs; a PRESENT ID that is not OPTIONAL must answer (R342,
R347). -/
def W.discover (w : W) (e : StartEnv) : W :=
  let m := w.s.site.image
  let order := discoveryOrder m
  let named := 0 :: e.found.map (·.id.toNat)
  let w1 := w.on fun s =>
    let s1 := (s.onPk fun p =>
      { p with idValid := true, id := 0, route := BitVec.ofNat 24 (topoRoute (topoEntry m 0)) }).setFence
    let s2 := order.foldl (fun s i => s.emit (.toPkg (.assign i s.pk.cold))) s1
    { s2 with pk := { s2.pk with steps := stepsOf (s2.self :: e.found) }, site := { s2.site with found := e.found } }
  match order.find? fun i => !named.contains i && !topoOptional (topoEntry m i) with
  | some i =>
    let x := missingAt m named i
    w1.halt (BitVec.ofNat 3 x.1) 9 (place i 8 3 + x.2)
  | none => w1.done 9

/-- What a capability record declares: profile bit and FEATURES (R306). -/
def recProfile (r : List Byte) (k : Nat) : Bool := testBit (sub r 5 1) k
def recFeat (r : List Byte) : Nat := sub r 12 4

/-- Kind of the partner that sent a record on a port (R311, R334). -/
def partnerKind (p : Port) (r : List Byte) : Nat :=
  if isMemory p then 2 else if !isPeer p then 3
  else if sub r 0 2 = 0x0B74 ∧ sub r 2 2 / 256 = 8 then 1 else 4

/-- The first port of the chiplets named whose partner differs from the image, or is REQUIRED and missing: code,
ID and port (R347). -/
def portFault (m : Mem) (fs : List Found) : Option (Nat × Nat × Nat) :=
  let ids := fs.map (·.id.toNat)
  let checks := (List.range 8).flatMap fun i => (fs.filter fun f => f.id.toNat == i).flatMap fun f =>
    allPorts.filterMap fun p =>
      let want := topoKind (topoEntry m i) p.1
      match f.ports.find? (fun x => x.1 == p) with
      | some x => if partnerKind p x.2 ≠ want then some (0xA, i, p.1) else none
      | none => if portNeeded m ids i p.1 then some (9, i, p.1) else none
  checks.head?

/-- FEATURES and PROFILE that an RQ812 declares on a port (R308). -/
def ownDeclares (p : Port) : Nat × Nat := if isPeer p then (0, 0x3F) else if isMemory p then (3, 0) else (2, 0x70000)

/-- The package capability set: for each profile, the AND over every die that declared it (R308). -/
def packageFeat (fs : List Found) : Nat :=
  let recs := fs.flatMap fun f => f.ports.map (·.2)
  let own := fs.flatMap fun f => f.ports.map fun x => ownDeclares x.1
  let part := fun k mask =>
    let all := ((recs.filter fun r => recProfile r k).map recFeat) ++ ((own.filter fun o => o.1 == k).map (·.2))
    if all.isEmpty then 0 else all.foldl (· &&& ·) mask
  part 0 0xFF + part 1 0xFF00 + part 2 0xFF0000

/-- The bits that the image implies (R343). -/
def impliedFeat (m : Mem) : Nat :=
  let ids := topoIds m
  let charts := (List.range 4096).filterMap (imgChart m)
  let forward := ids.any fun i => ids.any fun d => i != d && (topoStep m i d).bind (topoNext m i) != some d
  let chain := charts.any fun c => c.groups.any fun g => (shapeQuads (modeShape c.mode)).any fun q =>
    decide (1 < ((((c.members g).filter fun p => p.quad == q).map (·.chiplet)).eraseDups).length)
  let atomic := charts.any fun c => c.positions.any fun p => p.ctrChiplet != p.chiplet
  let stream := ids.any fun i => (List.range 16).any fun k =>
    let x := setWindow m i 6 k
    x.type == 2 && x.ord
  bit atomic + 2 * bit chain + 8 * bit forward + 0x10000 * bit stream

/-- Step 10 on the lead (R311, R343). -/
def W.capabilities (w : W) (e : StartEnv) : W :=
  let m := w.s.site.image
  let fs := w.s.self :: e.found
  match portFault m fs with
  | some (code, i, p) => w.halt (BitVec.ofNat 3 i) code (place i 8 3 + p)
  | none =>
    let feat := packageFeat fs
    let need := imgReqFeat m ||| impliedFeat m
    let w1 := w.on fun s =>
      ({ s with proto := { s.proto with pkgFeat := BitVec.ofNat 32 feat } }).emit
        (.toPkg (.features (BitVec.ofNat 32 feat)))
    match firstBelow 32 fun b => testBit need b && !testBit feat b with
    | some b => w1.haltHere 0xB b
    | none => w1.done 10

/-- A stack treated as failed at step 11 (R345). -/
def State.stackFailed (s : State) (way : Nat) : Bool :=
  s.site.stackBad.getLsbD way || (s.port (fin 6 way)).state != 2

/-- CAPACITY of a stack in bytes (R306, R218). -/
def State.stackBytes (s : State) (way : Nat) : Nat := sub (s.port (fin 6 way)).partner 24 4 * 2 ^ 20

/-- WAYS set to the survivor, or to two ways, and SN_STACK_SIZE (R218, R337, R345). -/
def State.mapStacks (s : State) : State :=
  let ways : BitVec 2 :=
    if s.stackFailed 0 then 2 else if s.stackFailed 1 then 1 else 0
  let size := match ways.toNat with
    | 1 => s.stackBytes 0
    | 2 => s.stackBytes 1
    | _ => 2 * min (s.stackBytes 0) (s.stackBytes 1)
  { s with proto := { s.proto with stackWays := ways, stackSize := BitVec.ofNat 64 size } }

/-- Step 11: both stacks failed halt, otherwise the stack space is populated (R345). -/
def W.stacks (w : W) : W :=
  if w.s.stackFailed 0 && w.s.stackFailed 1 then w.haltAt 0xC 0 else (w.on (·.mapStacks)).done 11

/-! ## Step 12: shares, enrolment, binding, counts (R340, R401-R413, R440, R444) -/

/-- The enrolment record of this chiplet's ID, 192 bytes and its signature (R406). -/
def enrolRec (m : Mem) (id : Nat) : List Byte :=
  match idRecord m 3 id with
  | some o => memReadN m o (192 + memNat m (o + 8) 4)
  | none => []

/-- The identity seed, by R404: reconstructed from the array and the helper data when the array is fresh, else
taken from the latch; none when there is no seed to be had. -/
def State.seedOf (s : State) (helper : List Byte) : Option (BitVec 256) :=
  if s.vault.pufFresh then Config.pufSeed s.vault.puf (helper.drop 8) else s.vault.latch

/-- The helper entry of this chiplet: found by SERIAL in the lead's flash, sent with the share to a member
(R405). -/
def State.helperHere (s : State) (e : StartEnv) : List Byte :=
  if s.pk.lead then helperOf (flashOf e.flash) e.density e.serial.toNat else e.helper

/-- The records of the chiplet's ID match the die: SPAREMAP by serial and stepping, ENROL and helper entry by
serial (R347, R407). -/
def State.enrolled (s : State) (e : StartEnv) : Bool :=
  let m := s.site.image
  let r := enrolRec m s.pk.id.toNat
  let h := s.helperHere e
  let sp := match idRecord m 2 s.pk.id.toNat with
    | some o => memNat m o 8 == e.serial.toNat && spareStepping m o == s.pk.stepping.toNat
    | none => false
  sp && decide (192 ≤ r.length) && sub r 0 8 == e.serial.toNat &&
    hssVerify (certRootPub (ownerSect m)) (r.take 192) (r.drop 192) && h.length == 8192 &&
    sub h 0 8 == e.serial.toNat && sha256 h == (r.drop 72).take 32

/-- The array read: the latch filled and the fresh mark cleared (R404). -/
def State.fillLatch (s : State) (seed : BitVec 256) : State :=
  s.onVault fun v => { v with latch := some seed, pufFresh := false }

/-- The log records of this chiplet, oldest first: those of the lead's log with its SERIAL, or those that came
with a member's share (R402, R444). -/
def State.ownRecords (s : State) (e : StartEnv) : List (List Byte) :=
  (if s.pk.lead then logRecords s.life.log s.life.logSize else e.records).filter fun r => recSerial r == e.serial.toNat

/-- Bodies of the records of a type, oldest first. -/
def bodiesOf (rs : List (List Byte)) (type : Nat) : List (List Byte) :=
  (rs.filter fun r => recType r == type).map recBody

/-- PK_POWERON: one above the highest POWERON of the lead's log, or 1; a member is given it (R444). -/
def State.powerOnOf (s : State) (e : StartEnv) : W64 :=
  if s.pk.lead then
    BitVec.ofNat 64 ((logRecords s.life.log s.life.logSize).foldl (fun n r => max n (recPowerOn r)) 0 + 1)
  else e.powerOn

/-- A binding record signed by this chiplet (R409). -/
def bindSigned (pub r : List Byte) : Bool := hssVerify pub (r.take 128) ((r.drop 128).take (sub r 12 4))

/-- The chiplet's binding: of its own records that verify, the one with the highest BIND_COUNT (R409). -/
def bindingOf (pub : List Byte) (own : List (List Byte)) : Option Binding :=
  (own.filter (bindSigned pub)).foldl (fun o r =>
    let b : Binding := ⟨BitVec.ofNat 32 (sub r 8 4), (r.drop 48).take 32, BitVec.ofNat 64 (sub r 80 8)⟩
    match o with
    | some x => if x.count.toNat < b.count.toNat then some b else some x
    | none => some b) none

/-- The release of the certificate admits this image for a former owner's binding (R401, R402). -/
def released (cert : List Byte) (former devId : List Byte) : Bool :=
  let off := sub cert 196 4
  let r := cert.drop off
  let dev := (r.drop 32).take 32
  off != 0 && sha256 ((r.drop 64).take 60) == former && r.take 32 == sha256 (certOwnerPub cert) &&
    (dev.all (· == 0) || dev == devId) &&
    hssVerify ((r.drop 64).take 60) (r.take 128) ((r.drop 128).take (sub r 124 4))

/-- Test 4 of R402: none when it fails; otherwise whether a new binding is owed (R410). -/
def bindingTest (cert devId : List Byte) (seq : Nat) : Option Binding → Option Bool
  | none => some true
  | some b =>
    if b.ownerHash = sha256 (certOwnerPub cert) ∧ b.floor.toNat ≤ seq then some (decide (b.floor.toNat < seq))
    else if released cert b.ownerHash devId then some true
    else none

/-- NEXT_BLOCK of the newest reservation record with a valid HMAC; 0 without one (R413). -/
def reservedBlock (seed : BitVec 256) (serial : W64) (rs : List (List Byte)) : Nat :=
  match (rs.filter fun r => sub r 0 8 == serial.toNat && (r.drop 32).take 32 == reserveMac seed (r.take 32)).getLast? with
  | some r => sub r 8 4
  | none => 0

/-- Keys live: identity, owner, the first signature index and the pending binding (R398, R408-R413). -/
def State.keysLive (s : State) (e : StartEnv) (seed : BitVec 256) (bind : Option Binding) (pending bad : Bool) : State :=
  let cert := ownerSect s.site.image
  let pub := enrolPub s.site.image s.pk.id.toNat
  let next := max (reservedBlock seed e.serial (bodiesOf (s.ownRecords e) 6)) s.vault.blockHeld.toNat
  let leaf := min (256 * next) (2 ^ 25)
  let hash := fun bs => BitVec.ofNat 256 (bytesToNat (sha256 bs))
  (s.onSec fun x =>
    { x with keysLive := true, owned := true, bindPending := pending, bindBad := bad, att := 0,
             leaf := BitVec.ofNat 26 leaf, devId := hash pub, owner := hash (certOwnerPub cert) }).onVault fun v =>
    { v with seed := some seed, binding := bind, block := none, tree := leaf / 32768 }

/-- The counts of the log join those kept since reset, when VDD_AO has been removed (R440). -/
def State.loadCounts (s : State) (totals : Option (List Byte)) : State :=
  let l := s.life
  if l.kept then { s with life := { l with held := true } }
  else match totals with
    | some bs => { s with life := { l with counts := l.counts.add (Counts.ofBytes bs), kept := true } }
    | none => { s with life := { l with kept := true, fresh := true } }

/-- The records of a member that go with its share: its newest TOTALS record, its BINDING and its RESERVE records
(R402, R444). -/
def shareRecords (rs : List (List Byte)) (serial : Nat) : List (List Byte) :=
  let mine := rs.filter fun r => recSerial r == serial
  (mine.filter fun r => recType r == 1).getLast?.toList ++ mine.filter fun r => recType r == 5 || recType r == 6

/-- The share of ID `i`: the image, PK_POWERON, and by the SERIAL of its SPAREMAP record its helper entry and its
log records (R340, R402, R405, R444). -/
def State.shareFor (s : State) (e : StartEnv) (i : Nat) : PkgMsg :=
  let m := s.site.image
  let serial := match idRecord m 2 i with
    | some o => memNat m o 8
    | none => 0
  .share i (s.powerOnOf e).toNat (helperOf (flashOf e.flash) e.density serial)
    (shareRecords (logRecords s.life.log s.life.logSize) serial)

/-- The image area takes the image; the lead sends the shares (R340, R341). -/
def State.storeImage (s : State) (e : StartEnv) : State :=
  let base := BitVec.ofNat 56 (place s.pk.id.toNat 52 3 + (s.proto.stackSize.toNat - 0x10000000))
  let m := s.site.image
  let s1 := (s.onPk fun p =>
    { p with imgBase := base, imageSeq := BitVec.ofNat 64 (imgSeq m), powerOn := s.powerOnOf e }).emit
      (.store base.toNat (memReadN m 0 (imgSize m)))
  if s.pk.lead then s.site.found.foldl (fun s1 f => s1.emit (.toPkg (s.shareFor e f.id.toNat))) s1 else s1

/-- A member that holds a flash of its own keeps a mirror log there: strapped lead or standby, its flash readable,
and no yield with FLASH or IMG_FORMAT in this start (R445). -/
def State.takeMirror (s : State) (e : StartEnv) : State :=
  if !s.pk.lead && (s.pk.strap == 1 || s.pk.strap == 2) && e.flashOk && e.readOk && !s.life.mirrorOff then
    let s1 := s.withLog e.flash
    { s1 with life := { s1.life with mirror := true } }
  else s

/-- GRADE from the enrolment data of the chiplet's record (R336, R352). -/
def State.takeGrade (s : State) : State :=
  match idRecord s.site.image 2 s.pk.id.toNat with
  | some o => s.onPk fun p => { p with grade := spareGrade s.site.image o }
  | none => s

/-- Step 12 once the image is in place: enrolment, then the owner binding (R402, R404, R407, R409, R410). -/
def W.enrol (w : W) (e : StartEnv) : W :=
  let m := w.s.site.image
  let pub := enrolPub m w.s.pk.id.toNat
  let check := ((enrolRec m w.s.pk.id.toNat).drop 104).take 32
  if !w.s.enrolled e then w.haltAt 0xD 0
  else match w.s.seedOf (w.s.helperHere e) with
    | none => (w.on (·.onVault fun v => { v with pufFresh := false })).haltAt 0xD 0
    | some seed =>
      let w1 := w.on fun s => (s.fillLatch seed).takeGrade
      if natToBytes 32 (Config.seedCheck seed).toNat ≠ check then w1.haltAt 0xD 0
      else
        let rs := w.s.ownRecords e
        let own := (bodiesOf rs 5).filter fun r => sub r 0 8 == e.serial.toNat
        let bind := bindingOf pub own
        match bindingTest (ownerSect m) (sha256 pub) (imgSeq m) bind with
        | none => w1.sigFail
        | some pending =>
          (w1.on fun s => (s.keysLive e seed bind pending (own.any fun r => !bindSigned pub r)).loadCounts
            (bodiesOf rs 1).getLast?).done 12

/-- Step 12. The image area is written first; then a member checks its share (R340, R341). A read error of the
lead's flash halts. -/
def W.share (w : W) (e : StartEnv) : W :=
  let lead := w.s.pk.lead
  if lead && !e.readOk then w.haltHere 4 0
  else
    let w1 := if lead then w else w.on fun s => (s.withImage (imageOf e.share)).takeMirror e
    let w2 := w1.on (·.storeImage e)
    let m := w1.s.site.image
    if lead then w2.enrol e
    else if !imgHeaderOk m (2 ^ 28) then w2.haltHere 5 0
    else if !imgDirOk m then w2.haltHere 5 0xFFFF
    else if !imgSigned m then w2.sigFail
    else match imgBadDigest m with
      | some t => w2.haltHere 5 t
      | none => w2.enrol e

/-! ## Steps 13 to 17: self-test, sites, settings, firmware (R15, R23-R26, R229, R232, R337, R341) -/

/-- Sites of a region passed through `f`. -/
def State.onSites (s : State) (r : Region) (f : Sites → Sites) : State :=
  { s with site := { s.site with regions := vmod s.site.regions r f } }

/-- Every region. -/
def allRegions : List Region := (List.range 8).map (fin 7)

/-- The isthmus lets a site work: no group that serves it has two failed bonds (R14, R15). -/
def siteLinked (bonds : List (Nat × Nat)) (r s : Nat) : Bool :=
  !((bondGroups bonds).any fun g => !groupWorks bonds g && Config.isthServes g == .site r s)

/-- Shared logic that the isthmus fails: its region, or 0xFF for the whole chiplet (R15, R347). -/
def isthFault (bonds : List (Nat × Nat)) : Option Nat :=
  ((bondGroups bonds).filter fun g => !groupWorks bonds g).findSome? fun g => match Config.isthServes g with
    | .site _ _ => none
    | .region r => some r
    | .chip => some 0xFF

/-- Sites of a region that pass: those of the self-test that the isthmus reaches (R15, R23). -/
def sitesPass (e : StartEnv) (r : Region) : BitVec 9 :=
  (List.range 9).foldl (fun x i => if siteLinked e.bonds r.1 i then x else setBit x i false) (e.sitesOk.getD r.1 0)

/-- Step 13: memories zeroed, base-tier self-test, the isthmus, and sites 0 to 7 (R15, R23, R229, R232). -/
def W.selfTest (w : W) (e : StartEnv) : W :=
  let w1 := w.on fun s =>
    let s1 := s.zeroLagoon.zeroShoal
    let s2 := { s1 with site := { s1.site with bonds := e.bonds } }
    allRegions.foldl (fun s r => s.onSites r fun _ => ⟨0, 0xFF, sitesPass e r &&& 0xFF⟩) s2
  match e.baseFail, isthFault e.bonds with
  | some x, _ => w1.haltAt 0x10 x.toNat
  | none, some x => w1.haltAt 0xE x
  | none, none => w1.done 13

/-- Sites of a region that passed. -/
def Sites.passes (x : Sites) : Nat := popCount 9 x.pass.toNat

/-- Step 14: site 8 where a site of 0-7 failed; seven must pass (R23, R24). -/
def W.reserveTest (w : W) (e : StartEnv) : W :=
  let w1 := w.on fun s => allRegions.foldl (fun s r => s.onSites r fun x =>
    if x.pass = 0xFF then x
    else { x with tested := 0x1FF, pass := x.pass ||| (sitesPass e r &&& 0x100) }) s
  match allRegions.find? fun r => decide ((w1.s.site.regions.get r).passes < 7) with
  | some r => w1.haltAt 0xF r.1
  | none => w1.done 14

/-- Clusters of a region settled and counted (R23, R26, R435). -/
def State.settleRegion (s : State) (r : Region) : State :=
  let x := s.site.regions.get r
  let n := min 8 x.passes
  let s1 := s.onSites r fun x => { x with clusters := BitVec.ofNat 4 n }
  let s2 := if x.pass.getLsbD 8 then s1.count (fin 63 (44 + r.1)) 1 else s1
  if n = 7 then s2.count (fin 63 (52 + r.1)) 1 else s2

/-- Router links: hub, other row, west and east in the 2 × 4 mesh (R233, R252). -/
def routerLinks (r : Region) : BitVec 4 :=
  BitVec.ofNat 4 (8 + 4 + (if 0 < r.1 % 4 then 2 else 0) + (if r.1 % 4 < 3 then 1 else 0))

/-- Step 15 (R23, R26, R268, R352). -/
def State.settleMaps (s : State) : State :=
  let s1 := allRegions.foldl (fun s r => (s.settleRegion r).onFerry r fun y => { y with links := routerLinks r }) s
  let s2 := if s.isthDiff = 0 then s1 else s1.count 35 1
  allBundles.foldl (fun s b => if (s.bundle b).counted || decide (7 ≤ (s.bundle b).step) then s.compareMaps b else s) s2

/-- The settings of this chiplet, in list order; then WAYS once more (R337, R345). -/
def W.settings (w : W) : W :=
  let mine := (imgSettings w.s.site.image).filter fun x => setChip x w.s.pk.id.toNat
  (mine.foldl (fun w x => w.ctlWrite (setBlock x) (setOffset x) (if setWide x then 8 else 4) (setValue x)) w).on
    (·.mapStacks)

/-- Every region controller's SRAM takes RCFW at address 0, where the controller is entered (R333, R341). -/
def State.loadFirmware (s : State) : State :=
  let fw := match imgSect s.site.image 5 with
    | some x => memWriteN [] 0 (sectBytes s.site.image x)
    | none => []
  { s with regions := s.regions.map fun x => { x with sram := fw }, site := { s.site with fwStarted := 0xFF } }

/-- Step 16: firmware loaded and started and settings applied, once; then the controllers report ready (R341,
R347). -/
def W.firmware (w : W) (e : StartEnv) : W :=
  let w1 := if w.s.site.fwStarted = 0xFF then w else (w.on (·.loadFirmware)).settings
  let ready := e.fwReady.foldl (fun b r => setBit b r.1 true) w1.s.site.fwReady
  let w2 := w1.on fun s => { s with site := { s.site with fwReady := ready } }
  if ready = 0xFF then w2.done 16 else w2

/-- Body of the START record: PK_ registers 0x0100 to 0x013F, then PK_ROLE, PK_STATE and PK_START_TIME (R442). -/
def State.startBody (s : State) : List Byte :=
  ((List.range 8).flatMap fun i => natToBytes 8 (s.pkSlot (0x100 + 8 * i))) ++ natToBytes 8 (s.pkSlot 0) ++
    natToBytes 4 (s.pkSlot 0x18)

/-- Step 17: on the lead once every chiplet is ready; the lead logs the START record of every chiplet (R341,
R442). -/
def W.run (w : W) (e : StartEnv) : W :=
  if w.s.pk.lead && !e.othersReady then w
  else
    let w1 := (w.on (·.onPk fun p => { p with running := true, phase := .running, startTime := e.aoCycles })).done 17
    let w2 := (w1.append (w1.s.logRecord 2 0 w1.s.startBody)).takeRecords
    if w.s.pk.lead then w2.on (·.emit (.toPkg .running)) else w2

/-- Steps 8 to 17, on every chiplet; a member's oscillator is trimmed at step 8, and a member without an ID
waits at step 9 (R325, R341, R342). -/
def W.nextStep (w : W) (e : StartEnv) : W :=
  let lead := w.s.pk.lead
  match w.s.pk.step.toNat with
  | 7 =>
    if !w.s.trained then w
    else if lead then w.done 8
    else (w.on fun s =>
      { s with pk := { s.pk with aoTrimmed := true }, ao := { s.ao with trim := e.trim } }).done 8
  | 8 =>
    if !w.s.exchanged then w
    else if lead then w.discover e
    else if w.s.pk.idValid then w.done 9 else w
  | 9 =>
    if lead then w.capabilities e
    else (w.on fun s =>
      { s with pk := { s.pk with steps := stepsOf (s.self :: e.found) },
               proto := { s.proto with pkgFeat := e.pkgFeat } }).done 10
  | 10 => w.stacks
  | 11 => w.share e
  | 12 => w.selfTest e
  | 13 => w.reserveTest e
  | 14 => (w.on (·.settleMaps)).done 15
  | 15 => w.firmware e
  | _ => w.run e

/-- The next step of start-up. Forced Slack suspends it (R348). -/
def execStartupStepAdvance (e : StartEnv) (s : State) : Host.Outcome State Fault Refusal :=
  let w : W := ⟨s.onVault fun v => { v with serial := e.serial }, e.env⟩
  if s.pk.phase ≠ .starting ∨ s.power.forced then .next s
  else if s.pk.step.toNat < 7 then .next (w.leadStep e).s
  else .next (w.nextStep e).s

/-! ## Time limits, reports, REFCLK (R345-R348, R350) -/

/-- A memory stack is not ready by the end of step 11 (R345). -/
def execStackReadyTimeout (way : Fin 2) (s : State) : Host.Outcome State Fault Refusal :=
  if s.pk.phase = .starting ∧ (s.pk.step = 9 ∨ s.pk.step = 10) ∧ !s.power.forced then
    let s1 := { s with site := { s.site with stackBad := setBit s.site.stackBad way.1 true } }
    let w : W := ⟨s1, Env.quiet⟩
    if s1.stackFailed 0 && s1.stackFailed 1 then .next (w.haltAt 0xC 0).s else .next s1.mapStacks
  else .next s

/-- A region controller is not ready within 100 ms (R347). -/
def execFirmwareReadyTimeout (r : Region) (s : State) : Host.Outcome State Fault Refusal :=
  if s.pk.phase = .starting ∧ s.pk.step = 15 ∧ s.site.fwStarted = 0xFF ∧ !s.site.fwReady.getLsbD r.1 ∧
      !s.power.forced then
    .next ((⟨s, Env.quiet⟩ : W).haltAt 0x11 r.1).s
  else .next s

/-- A report that the lead halts for: a member without its share reports every port that goes down, and the lead
knows which are REQUIRED (R346-R348; log 107). -/
def State.reportCounts (s : State) (x : BitVec 3 × BitVec 8 × BitVec 16) : Bool :=
  x.2.1 != 9 || x.1 == s.pk.id ||
    portNeeded s.site.image s.presentIds (field x.2.2.toNat 8 3) (field x.2.2.toNat 0 3)

/-- Of several reports, the one of the lowest chiplet ID (R346). -/
def lowestReport : List (BitVec 3 × BitVec 8 × BitVec 16) → Option (BitVec 3 × BitVec 8 × BitVec 16)
  | [] => none
  | x :: xs => match lowestReport xs with
    | some y => some (if y.1.toNat < x.1.toNat then y else x)
    | none => some x

/-- Halt reports that reach the lead in one cycle: it keeps the one of the lowest ID, writes PK_HALT and stops every
chiplet (R346). Without any, a chiplet of the package stops the start without a halt code, and the lead stops every
chiplet (R476). On a member the command is the lead's stop. -/
def execHaltReport (reports : List (BitVec 3 × BitVec 8 × BitVec 16)) (s : State) :
    Host.Outcome State Fault Refusal :=
  if s.pk.phase ≠ .starting then .next s
  else if !s.pk.lead then .next (s.endStart .stopped)
  else if reports.isEmpty then .next ((s.endStart .stopped).emit (.toPkg .stop))
  else match lowestReport (reports.filter s.reportCounts) with
    | some x => .next ((⟨s, Env.quiet⟩ : W).halt x.1 x.2.1.toNat x.2.2.toNat).s
    | none => .next s

/-- The lead's PLL has not locked within 2 ms (R347). -/
def execPllLockTimeout (s : State) : Host.Outcome State Fault Refusal :=
  if s.pk.lead ∧ s.pk.phase = .starting ∧ s.pk.step = 1 ∧ !s.power.forced then
    .next ((⟨s, Env.quiet⟩ : W).haltHere 3 0).s
  else .next s

/-- REFCLK at the lead is lost: its PLL and every clock stop. Before the tree is driven, start-up halts with
REFCLK; afterwards the package is down until the next start (R347, R350). -/
def execRefclkLoss (s : State) : Host.Outcome State Fault Refusal :=
  if !s.pk.lead ∨ !s.pk.refclkOk then .next s
  else
    let s1 := s.onPk fun p => { p with refclkOk := false, pllLock := false }
    if s.pk.tree then
      .next (((s1.driveClocks false).onPower fun p =>
        { p with regionsOn := 0, clustersOn := 0, waiting := [] }.settle).onPk fun p => { p with phase := .stopped })
    else if s.pk.phase = .starting then .next ((⟨s1, Env.quiet⟩ : W).haltHere 2 0).s
    else .next s1

end Sys2Proof.Machine
end

