-- ==== Sys2Proof/Machine/Dispatch.lean ====
section
/-! DEFINITION. One arm per command. -/

namespace Sys2Proof.Machine

def exec (i : Instr) (s : State) : Host.Outcome State Fault Refusal :=
  match i with
  | .rstNDeassert strap vct => Sys2Proof.Machine.execRstNDeassert strap vct s
  | .resetAssert pwrgood => Sys2Proof.Machine.execResetAssert pwrgood s
  | .upstreamClockLoss => Sys2Proof.Machine.execUpstreamClockLoss s
  | .forwardedClockArrival ports => Sys2Proof.Machine.execForwardedClockArrival ports s
  | .standbyTimeout refclk => Sys2Proof.Machine.execStandbyTimeout refclk s
  | .startupStepAdvance e => Sys2Proof.Machine.execStartupStepAdvance e s
  | .pkAssign v e => Sys2Proof.Machine.execPkAssign v e s
  | .stackReadyTimeout w => Sys2Proof.Machine.execStackReadyTimeout w s
  | .firmwareReadyTimeout r => Sys2Proof.Machine.execFirmwareReadyTimeout r s
  | .haltReport reports => Sys2Proof.Machine.execHaltReport reports s
  | .bundleClockTimeout b got => Sys2Proof.Machine.execBundleClockTimeout b got s
  | .bundleLockDone b => Sys2Proof.Machine.execBundleLockDone b s
  | .laneAlignDone b bad => Sys2Proof.Machine.execLaneAlignDone b bad s
  | .laneAcceptanceDone b bad clkOk => Sys2Proof.Machine.execLaneAcceptanceDone b bad clkOk s
  | .mapMessageAccepted b uis e => Sys2Proof.Machine.execMapMessageAccepted b uis e s
  | .prbsMapTimeout b => Sys2Proof.Machine.execPrbsMapTimeout b s
  | .syncTimeout b e => Sys2Proof.Machine.execSyncTimeout b e s
  | .flitReceived b uis e => Sys2Proof.Machine.execFlitReceived b uis e s
  | .replayTimeout b => Sys2Proof.Machine.execReplayTimeout b s
  | .diagReq b => Sys2Proof.Machine.execDiagReq b s
  | .diagCheckDone b bad clkOk cc e => Sys2Proof.Machine.execDiagCheckDone b bad clkOk cc e s
  | .diagMapTimeout b e => Sys2Proof.Machine.execDiagMapTimeout b e s
  | .retire p lb lastSeq e => Sys2Proof.Machine.execRetire p lb lastSeq e s
  | .retireAck p lb => Sys2Proof.Machine.execRetireAck p lb s
  | .replayBufferEmpty b => Sys2Proof.Machine.execReplayBufferEmpty b s
  | .lpReq b => Sys2Proof.Machine.execLpReq b s
  | .lpAck b => Sys2Proof.Machine.execLpAck b s
  | .lpExit b bad => Sys2Proof.Machine.execLpExit b bad s
  | .creditReturnTimer p => Sys2Proof.Machine.execCreditReturnTimer p s
  | .cap p e => Sys2Proof.Machine.execCap p e s
  | .capack p => Sys2Proof.Machine.execCapack p s
  | .capRepeatTimer p => Sys2Proof.Machine.execCapRepeatTimer p s
  | .capTimeout p e => Sys2Proof.Machine.execCapTimeout p e s
  | .rd p q e => Sys2Proof.Machine.execRd p q e s
  | .wr p q e => Sys2Proof.Machine.execWr p q e s
  | .wrs p q e => Sys2Proof.Machine.execWrs p q e s
  | .atomAdd p q e => Sys2Proof.Machine.execAtomAdd p q e s
  | .atomSwap p q e => Sys2Proof.Machine.execAtomSwap p q e s
  | .atomCas p q e => Sys2Proof.Machine.execAtomCas p q e s
  | .atomDraw p q e => Sys2Proof.Machine.execAtomDraw p q e s
  | .dbell p q e => Sys2Proof.Machine.execDbell p q e s
  | .mrd way adr len => Sys2Proof.Machine.execMrd way adr len s
  | .mwr way adr data => Sys2Proof.Machine.execMwr way adr data s
  | .tsb p q testOut => Sys2Proof.Machine.execTsb p q testOut s
  | .rcmp p tag st e => Sys2Proof.Machine.execRcmp p tag st e s
  | .wcmp p tag st e => Sys2Proof.Machine.execWcmp p tag st e s
  | .acmp p tag st e => Sys2Proof.Machine.execAcmp p tag st e s
  | .payloadFlit p proto payload => Sys2Proof.Machine.execPayloadFlit p proto payload s
  | .requestTimeout isRead tag e => Sys2Proof.Machine.execRequestTimeout isRead tag e s
  | .streamRequestRelease p ostr e => Sys2Proof.Machine.execStreamRequestRelease p ostr e s
  | .fyStart r v e => Sys2Proof.Machine.execFyStart r v e s
  | .ferryContextTakeup r e => Sys2Proof.Machine.execFerryContextTakeup r e s
  | .ferryReadIssue r id e => Sys2Proof.Machine.execFerryReadIssue r id e s
  | .ferryContextDone r id e => Sys2Proof.Machine.execFerryContextDone r id e s
  | .stageBlock r slot pat coords e => Sys2Proof.Machine.execStageBlock r slot pat coords e s
  | .writeBack r slot pos pat e => Sys2Proof.Machine.execWriteBack r slot pos pat e s
  | .scrubTick r e => Sys2Proof.Machine.execScrubTick r e s
  | .lgClear r v => Sys2Proof.Machine.execLgClear r v s
  | .counterDraw r slot grp remote => Sys2Proof.Machine.execCounterDraw r slot grp remote s
  | .arrayStep r c waited e => Sys2Proof.Machine.execArrayStep r c waited e s
  | .chunkEnd r c waited => Sys2Proof.Machine.execChunkEnd r c waited s
  | .promotionRow r c e => Sys2Proof.Machine.execPromotionRow r c e s
  | .drainComplete r c => Sys2Proof.Machine.execDrainComplete r c s
  | .tileAbort r c e => Sys2Proof.Machine.execTileAbort r c e s
  | .vcPassStart r c waited e => Sys2Proof.Machine.execVcPassStart r c waited e s
  | .vcPassEnd r c cc => Sys2Proof.Machine.execVcPassEnd r c cc s
  | .instanceDrained r slot far e => Sys2Proof.Machine.execInstanceDrained r slot far e s
  | .instanceFaulted r slot met far lost e => Sys2Proof.Machine.execInstanceFaulted r slot met far lost e s
  | .preemptDisplace r named e => Sys2Proof.Machine.execPreemptDisplace r named e s
  | .cmdRingDoorbell r n v e => Sys2Proof.Machine.execCmdRingDoorbell r n v e s
  | .cmdRingCfg r n v => Sys2Proof.Machine.execCmdRingCfg r n v s
  | .recordIssue r e => Sys2Proof.Machine.execRecordIssue r e s
  | .holdRelease r n e => Sys2Proof.Machine.execHoldRelease r n e s
  | .nop r e => Sys2Proof.Machine.execNop r e s
  | .bind r from_ e => Sys2Proof.Machine.execBind r from_ e s
  | .bindRelease r from_ e => Sys2Proof.Machine.execBindRelease r from_ e s
  | .start r from_ e => Sys2Proof.Machine.execStart r from_ e s
  | .stop r from_ e => Sys2Proof.Machine.execStop r from_ e s
  | .resume r from_ e => Sys2Proof.Machine.execResume r from_ e s
  | .resetCounter r e => Sys2Proof.Machine.execResetCounter r e s
  | .fence r => Sys2Proof.Machine.execFence r s
  | .writeFlag r => Sys2Proof.Machine.execWriteFlag r s
  | .signal r => Sys2Proof.Machine.execSignal r s
  | .cmdFltCfg r v => Sys2Proof.Machine.execCmdFltCfg r v s
  | .cmdFltRd r v => Sys2Proof.Machine.execCmdFltRd r v s
  | .cmdMboxBell r v => Sys2Proof.Machine.execCmdMboxBell r v s
  | .clusterStartSlot => Sys2Proof.Machine.execClusterStartSlot s
  | .clusterIdleTimeout r c => Sys2Proof.Machine.execClusterIdleTimeout r c s
  | .regionSlackTimeout r => Sys2Proof.Machine.execRegionSlackTimeout r s
  | .regionWake r => Sys2Proof.Machine.execRegionWake r s
  | .ebbReq e => Sys2Proof.Machine.execEbbReq e s
  | .ebbEntryProgress => Sys2Proof.Machine.execEbbEntryProgress s
  | .offReq told => Sys2Proof.Machine.execOffReq told s
  | .aoCmdWake => Sys2Proof.Machine.execAoCmdWake s
  | .wakeTimerExpiry => Sys2Proof.Machine.execWakeTimerExpiry s
  | .portWakeRequest p => Sys2Proof.Machine.execPortWakeRequest p s
  | .wakeProgress othersReady => Sys2Proof.Machine.execWakeProgress othersReady s
  | .thermalSample readings droops => Sys2Proof.Machine.execThermalSample readings droops s
  | .alarmSourceDetect src e => Sys2Proof.Machine.execAlarmSourceDetect src e s
  | .peerAlarm e => Sys2Proof.Machine.execPeerAlarm e s
  | .eraseSignal e => Sys2Proof.Machine.execEraseSignal e s
  | .lockZeroingDone e => Sys2Proof.Machine.execLockZeroingDone e s
  | .alarmNRelease => Sys2Proof.Machine.execAlarmNRelease s
  | .helperOverwrite serial => Sys2Proof.Machine.execHelperOverwrite serial s
  | .newNonce => Sys2Proof.Machine.execNewNonce s
  | .tokenGo e => Sys2Proof.Machine.execTokenGo e s
  | .tokenForward token e => Sys2Proof.Machine.execTokenForward token e s
  | .lowerEn level => Sys2Proof.Machine.execLowerEn level s
  | .attGo e => Sys2Proof.Machine.execAttGo e s
  | .attestationReady e => Sys2Proof.Machine.execAttestationReady e s
  | .bottomTreeBuilt e => Sys2Proof.Machine.execBottomTreeBuilt e s
  | .packageAuth reports e => Sys2Proof.Machine.execPackageAuth reports e s
  | .attReadyTimeout e => Sys2Proof.Machine.execAttReadyTimeout e s
  | .tapInstruction n e => Sys2Proof.Machine.execTapInstruction n e s
  | .segmentShiftUnit id out => Sys2Proof.Machine.execSegmentShiftUnit id out s
  | .ltFloodCcExpiry => Sys2Proof.Machine.execLtFloodCcExpiry s
  | .ltCtrlFlush => Sys2Proof.Machine.execLtCtrlFlush s
  | .ltCtrlSnap => Sys2Proof.Machine.execLtCtrlSnap s
  | .flushComplete e => Sys2Proof.Machine.execFlushComplete e s
  | .readToClear by_ blk off wide e => Sys2Proof.Machine.execReadToClear by_ blk off wide e s
  | .registerWrite by_ blk off wide v e => Sys2Proof.Machine.execRegisterWrite by_ blk off wide v e s
  | .powerUp => Sys2Proof.Machine.execPowerUp s
  | .powerLoss ao bt => Sys2Proof.Machine.execPowerLoss ao bt s
  | .refclkLoss => Sys2Proof.Machine.execRefclkLoss s
  | .pllLockTimeout => Sys2Proof.Machine.execPllLockTimeout s

end Sys2Proof.Machine
end

