-- ==== Sys2Proof/Safety.lean ====
section
/-! DEFINITION. What a step's outcome must be for a run to be safe, and what every state of a run keeps. -/

namespace Sys2Proof

/-- The step answers a next state: no fault and no refusal. -/
def StepSafe (s : Machine.State) : Prop := ∃ t, Machine.step s = .next t

/-- Strictly rising numbers from above `lo`. -/
def risingFrom (lo : Nat) : List Nat → Bool
  | [] => true
  | x :: xs => decide (lo ≤ x) && risingFrom (x + 1) xs

/-- Lagoon, shoal and context table in canonical form, and the poisoned blocks listed once each, rising. -/
def Machine.Memory.ok (m : Machine.Memory) : Bool :=
  Machine.memWf m.lagoon && Machine.memWf m.shoal && Machine.memWf m.ctx && risingFrom 0 m.poison

end Sys2Proof
end

