-- ==== Sys2Proof/Certificates/Slice0/Obligations.lean ====
section
/-! DEFINITION. The statements about the block, with the predicates they share. -/

namespace Sys2Proof.Machine

/-- The bytes `bs` stand in the lagoon from offset `off` on, and every other lagoon byte is as in `s`: said of states
`s` whose lagoon is in canonical form, which every step keeps (MemoriesStayCanonical). -/
def LagoonHolds (s t : State) (off : Nat) (bs : List Byte) : Prop :=
  memWf s.mem.lagoon = true → (∀ i, i < bs.length → memRead t.mem.lagoon (off + i) = bs.getD i 0) ∧
    ∀ a, a < off ∨ off + bs.length ≤ a → memRead t.mem.lagoon a = memRead s.mem.lagoon a

/-- Every block that `n` bytes at lagoon offset `off` touch passes its CRC check and is not poisoned (R224, R225). -/
def CleanSpan (e : Env) (s : State) (off n : Nat) : Prop :=
  ∀ b, off / 64 ≤ b → 64 * b < off + n →
    s.poisoned b = false ∧ s.crcWrong b = false ∧ b ∉ e.crcOnce ∧ b ∉ e.crcTwice

/-- What a reset leaves of the state `s`: everything as at reset but for what the always-on domain and the seed
latch keep (R327, R404, R422, R440). -/
def ResetFrom (s t : State) : Prop :=
  t.pk.phase = .inReset ∧ t.pk.tree = false ∧ t.pk.running = false ∧ t.pk.step = 0 ∧ t.pk.idValid = false ∧
  t.link = State.reset.link ∧ t.proto = State.reset.proto ∧ t.regions = State.reset.regions ∧
  t.clusters = State.reset.clusters ∧ t.power = State.reset.power ∧ t.vault.seed = none ∧ t.sec.keysLive = false ∧
  t.sec.alarm = s.sec.alarm ∧ t.sec.erased = s.sec.erased ∧ t.vault.latch = s.vault.latch ∧
  t.life.counts = s.life.counts ∧ (s.pk.tree = true → ∀ b : BundleNo, Out.clock b false ∈ t.outbox)

/-- A start-up command that halts: PK_HALT holds chiplet, code and detail, and the sequence stands (R346). -/
def HaltsWith (c : Instr) (s : State) (chip : BitVec 3) (code : BitVec 8) (detail : BitVec 16) : Prop :=
  ∃ t, exec c s = .next t ∧ t.pk.halt = ⟨true, chip, code, detail⟩ ∧ t.pk.phase = .halted ∧ t.pk.step = s.pk.step ∧
    t.link = s.link ∧ t.mem = s.mem ∧ t.regions = s.regions ∧ t.clusters = s.clusters

/-- Step `n` of start-up is completed, and `p` holds then (R341). -/
def StepDone (e : StartEnv) (s : State) (n : BitVec 5) (p : State → Prop) : Prop :=
  ∃ t, exec (.startupStepAdvance e) s = .next t ∧ t.pk.step = n ∧ t.pk.phase = .starting ∧ p t

/-- Nothing but links, outbox, lifetime counts and the free values' counter differs between `s` and `t`. -/
def LinkOnly (s t : State) : Prop :=
  t = { s with link := t.link, outbox := t.outbox, life := t.life, freeCtr := t.freeCtr }

/-- The map that lanes found bad give to a direction: FAIL grows by them, and MODE follows R261, retired when VLD,
TRK or the forwarded clock failed (R261, R265). -/
def TestedMap (old : LaneMap) (bad : BitVec 36) (clkOk : Bool) : LaneMap :=
  ⟨old.fail ||| bad.setWidth 34, if bad.getLsbD 34 || bad.getLsbD 35 || !clkOk then 2
    else modeOf (old.fail ||| bad.setWidth 34)⟩

/-- The UI that arrive carry a good flit, and it has the header fields given (R259, R260, R270, R271, R273). -/
def FlitRead (x : Bundle) (uis : List (BitVec 36)) (flit : List Byte) (type : Nat) (seq ack : BitVec 12) (nak : Bool) :
    Prop :=
  x.readFlit uis = some flit ∧ field (sub flit 0 12) 92 4 = type ∧ field (sub flit 0 12) 80 12 = seq.toNat ∧
    field (sub flit 0 12) 68 12 = ack.toNat ∧ testBit (sub flit 0 12) 67 = nak

/-- What the link hands on of a flit: PROTO and payload (R270). -/
def flitBody (flit : List Byte) : TxFlit := ⟨BitVec.ofNat 64 (field (sub flit 0 12) 0 64), (flit.drop 12).take 256⟩

/-- Nothing is handed on to the port of bundle `b`: SEQ expected, messages and payload flits stay (R274, R278). -/
def NothingTaken (s t : State) (b : BundleNo) : Prop :=
  (t.bundle b).expSeq = (s.bundle b).expSeq ∧ (t.bundle b).flitsRx = (s.bundle b).flitsRx ∧
    (t.port (bundlePort b)).inbox = (s.port (bundlePort b)).inbox ∧
    (t.port (bundlePort b)).payWait = (s.port (bundlePort b)).payWait ∧ t.mem = s.mem

/-- A NAK goes out on bundle `b` (R275). -/
def NakSent (t : State) (b : BundleNo) : Prop :=
  ∃ bytes uis, Out.flit b bytes uis ∈ t.outbox ∧ testBit (sub bytes 0 12) 67 = true

/-- One DATA flit more has left by a bundle or waits on port `p`. -/
def OneFlitMore (s t : State) (p : Port) : Prop :=
  t.outbox.length + (t.port p).txWait.length = s.outbox.length + (s.port p).txWait.length + 1

/-- Only clocks of regions start, or are noted to be due, between `s` and `u` (R379). -/
def WakesOnly (s u : State) : Prop :=
  u.power = { s.power with st := u.power.st, regionsOn := u.power.regionsOn, regionsDue := u.power.regionsDue,
                           wakeDue := u.power.wakeDue }

/-- One message waits on port `p`: the request `q` with this operation (R294, R295). -/
def Waits (s : State) (p : Port) (op atop : Nat) (q : Req) : Prop :=
  ∃ m : RxMsg, (s.port p).inbox = [[m]] ∧ m.isReq op atop q = true

/-- One message waits on port `p`: a response (R294, R296). -/
def RspWaits (s : State) (p : Port) (op : Nat) (tag : BitVec 14) (st : Status) (m : RxMsg) : Prop :=
  (s.port p).inbox = [[m]] ∧ m.isRsp op tag st = true

/-- The write data of request `q` stand at port `p` (R293). -/
def DataOf (s : State) (p : Port) (q : Req) (data : List Byte) : Prop :=
  (s.takePayload p 0 q.src.toNat q.tag.toNat).2 = some data

/-- The bytes that a WR with payload `data` stores (R293, R297). -/
def storedBytes (q : Req) (data : List Byte) : List Byte := (data.take q.len ++ List.replicate q.len 0).take q.len

/-- A request `q` of an RQ-family chiplet on peer port `p` for this chiplet, with no stream open here and first in
its own (R297, R303, R311). -/
def AtPeer (s : State) (p : Port) (q : Req) : Prop :=
  isPeer p = true ∧ (s.port p).state = 2 ∧ s.proto.fence.getLsbD p.1 = false ∧ s.proto.streams = [] ∧
    (q.ostr = 0 ∨ q.oseq = 0) ∧ addrChip q.addr.toNat = s.pk.id.toNat

/-- The bytes of the request lie in one aligned 256-byte block (R297). -/
def InBlock (a n : Nat) : Prop := a % 256 + n ≤ 256

/-- Command `i` executes request `q` and answers it from the state `u`: operation, status, result and read data
(R296). `u` differs from `s` in memory, in the port, in streams, in the clocks of regions and in what regions count. -/
def AnswersFrom (i : Instr) (p : Port) (q : Req) (op : Nat) (gate : Bool) (s u : State) (st : Status) (result : Nat)
    (data : List Byte) : Prop :=
  exec i s = .next ((u.respond ⟨p, q.src, q.tag, q.ostr, gate⟩ op st result data).onPort p fun x =>
      { x with inbox := [] }) ∧
    u = { s with mem := u.mem, link := u.link, regions := u.regions, power := u.power,
                 proto := { s.proto with streams := u.proto.streams } } ∧
    u.mem.ctx = s.mem.ctx ∧ u.mem.shoal = s.mem.shoal ∧ u.link.bundles = s.link.bundles ∧
    (∀ p', p' ≠ p → u.port p' = s.port p') ∧ WakesOnly s u

/-- Request `q` reads: memory and regions stay (R226). -/
def ReadsFrom (i : Instr) (p : Port) (q : Req) (op : Nat) (gate : Bool) (s : State) (st : Status) (result : Nat)
    (data : List Byte) : Prop :=
  ∃ u, AnswersFrom i p q op gate s u st result data ∧ u.mem = s.mem ∧ u.regions = s.regions

/-- Request `q` stores bytes at a lagoon offset, through the router port of the slice, and is answered OK (R222,
R227, R296). -/
def StoresAt (i : Instr) (p : Port) (q : Req) (op : Nat) (gate : Bool) (s : State) (off : Nat) (bs : List Byte) : Prop :=
  ∃ u, AnswersFrom i p q op gate s u .ok 0 [] ∧ LagoonHolds s u off bs ∧ u.regions = (s.sliceIn off bs.length).regions

/-- A request of the partner of a fenced port that the gate judges: no stream open, its table not full (R315). -/
def AtGate (s : State) (p : Port) (q : Req) : Prop :=
  isMemory p = false ∧ (s.port p).state = 2 ∧ s.proto.fence.getLsbD p.1 = true ∧
    (s.pk.idValid = true ∨ isPeer p = false) ∧ s.proto.streams = [] ∧ s.gateUse p < 1024 ∧ (q.ostr = 0 ∨ q.oseq = 0)

/-- Window `k` is the lowest of port `p` that lets requests in and holds `a` (R315). -/
def Lowest (s : State) (p : Port) (a : Nat) (k : Fin 16) : Prop :=
  ((s.window p k.1).type = 1 ∨ (s.window p k.1).type = 3) ∧ (s.window p k.1).hit a = true ∧
    ∀ j : Fin 16, j < k → (s.window p j.1).hit a = false ∨ (s.window p j.1).type = 0 ∨ (s.window p j.1).type = 2

/-- Fault records of region `r` stay on this chiplet: its fault ring is disabled, or lies in the lagoon and sends no
DBELL (R368). -/
def RecordsStay (s : State) (r : Region) : Prop :=
  (s.regions.get r).flt.en = false ∨ (s.regions.get r).flt.notifyEn = false ∧
    ∀ n, n < ringSize (s.regions.get r).flt.log2 → ∃ off, s.locate ((s.regions.get r).flt.base.toNat + 64 * n) = .lagoon off

/-- No memory byte changes but those of the next fault record of region `r` (R368). -/
def OnlyRecord (s t : State) (r : Region) : Prop :=
  t.mem.ctx = s.mem.ctx ∧ t.mem.shoal = s.mem.shoal ∧ ((s.regions.get r).flt.en = false → t.mem = s.mem) ∧
    ∀ off, memWf s.mem.lagoon = true → s.locate ((s.regions.get r).flt.base.toNat +
        64 * ((s.regions.get r).flt.wr.toNat % ringSize (s.regions.get r).flt.log2)) = .lagoon off →
      ∀ a, a < off / 64 * 64 ∨ off / 64 * 64 + 64 ≤ a → memRead t.mem.lagoon a = memRead s.mem.lagoon a

/-- The gate refuses request `q`: REFUSED goes back, the refusal is counted and kept, and no memory byte changes but
those of a record, whose ring stays on this chiplet (R314, R315, R319). -/
def GateRefuses (i : Instr) (p : Port) (q : Req) (op : Nat) (s : State) (hit : Bool) (win : Nat) : Prop :=
  ∃ u : State, exec i s = .next ((u.respond ⟨p, q.src, q.tag, q.ostr, true⟩ op .refused 0 []).onPort p fun x =>
      { x with inbox := [] }) ∧
    u.proto.refused = s.proto.refused + 1 ∧ u.proto.lastRefused = ⟨true, false, hit, if hit then BitVec.ofNat 4 win else 0,
      BitVec.ofNat 3 p.1, BitVec.ofNat 52 q.addr.toNat⟩ ∧ u.clusters = s.clusters ∧ OnlyRecord s u 0

/-- The end of request `x` writes no record beyond the chiplet: it is of no context at work, or of one without a
status record whose region keeps its fault records here. -/
def EndsHere (s : State) (x : Post) : Prop :=
  ∀ r id c, x.context = some (r, id) → s.loaded r id = some c → s.recordOf c = 0 ∧ RecordsStay s r

/-- Tag or identifier `id` of `old` is released in `new`; it is held again at most by a request that waited. -/
def Released (id : BitVec 14) (old : List Outst) (waiting : List Post) (new : List Outst) : Prop :=
  (∀ y ∈ new, y.id = id → y.x ∈ waiting) ∧ ∀ y ∈ old, y.id ≠ id → y ∈ new

/-- The controller of region `r` holds record `c`, its operation is `op`, and the controller acts: no alarm, clocked,
not in forced Slack, not halted (R356, R358, R367, R376, R392). -/
def Issued (s : State) (r : Region) (op : Nat) (c : Current) : Prop :=
  (s.regions.get r).current = some c ∧ recOp c.bytes = op ∧ s.regionActs r = true

/-- Record `f` of region `r` retires between `s` and `t` with the STATUS word `st`, written at its byte 56 (R358,
R362): shown for a record in this chiplet's lagoon. -/
def Retires (e : Env) (s t : State) (r : Region) (f : RecRef) (st : W64) : Prop :=
  t.ring r f.ring = (s.ring r f.ring).retire f ∧
    ∀ off, s.locateN (f.addr + 56) 8 = .lagoon off → CleanSpan e s off 8 → LagoonHolds s t off (natToBytes 8 st.toNat)

/-- The same instances and clusters in both states. -/
def SameWork (s t : State) : Prop :=
  (∀ (r : Region) (k : SlotNo), t.inst r k = s.inst r k) ∧ t.clusters = s.clusters

/-- The record in the controller of `r` retires NOT_NOW and has no effect on instances and clusters (R361, R362). -/
def NotNow (i : Instr) (e : Env) (s : State) (r : Region) (c : Current) : Prop :=
  ∃ t, exec i s = .next t ∧ SameWork s t ∧
    Retires e s t r c.ref (statusWord codeNotNow (s.inst r (recInst c.bytes)).st.code
      (s.inst r (recInst c.bytes)).reason.toNat 0)

/-- The bounds that a START takes from arguments and values, without a FETCH (R194, R195). -/
def plainBounds (args : List Byte) : List BoundEntry → Nat → List Nat
  | [], _ => []
  | b :: bs, i => clampBound i (if b.src = 1 then sub args (8 * i) 8 else b.value) :: plainBounds args bs (i + 1)

/-- Only which clocks run, and Flood or Slack with them, differ between `s` and `t`: a stopped domain keeps every
bit of its state (R376). -/
def ClocksOnly (s t : State) : Prop :=
  t = { s with power := { s.power with st := t.power.st, regionsOn := t.power.regionsOn,
                                       clustersOn := t.power.clustersOn, waiting := t.power.waiting } }

/-- Ebb refused with a code, chiplet and place; nothing else changes (R381). -/
def EbbRefused (e : Env) (s : State) (code : BitVec 4) (chip : BitVec 3) (at_ : BitVec 8) : Prop :=
  exec (.ebbReq e) s =
    .next { s with power := { s.power with ebbResult := code, ebbChip := chip, ebbWhere := at_ } }

/-- Readings in eighths of a degree give every base sensor a valid value, the hottest being `b` (R389). -/
def BaseReads (readings : List (Option Int)) (b : Int) : Prop :=
  (∀ i, i < 32 → ∃ t : Int, readings.getD i none = some t ∧ -320 ≤ t ∧ t ≤ b) ∧
    (∃ i, i < 32 ∧ readings.getD i none = some b) ∧ b ≤ 1200

/-- LOCK as the sources `srcs` apply it to `s`, up to the zeroing: Alarmed, no key live, no grant, no engine at work,
every instance of the chiplet, and of others with positions here, Faulted; links and requests stay, and where no
instance has a record to write, or no clock runs, so do lagoon and shoal (R250, R367, R370, R420). -/
def LockedFrom (s t : State) (srcs : BitVec 8) : Prop :=
  t.sec.alarm = s.sec.alarm ||| srcs ∧ t.sec.keysLive = false ∧ t.sec.level = 0 ∧ t.sec.pkgAuth = false ∧
  t.vault.seed = none ∧ t.vault.locking = true ∧ t.vault.zeroed = false ∧ t.vault.nonceValid = false ∧
  (∀ (r : Region) (k : SlotNo), (t.inst r k).st = (if (s.inst r k).st = .idle ∧ 32 ≤ k.1 then .idle else .faulted) ∧
    ((t.inst r k).st = .faulted → (t.inst r k).reason = 7)) ∧
  (∀ k : Fin 64, (t.clusters.get k).tile = none ∧ (t.clusters.get k).issued = [] ∧ (t.clusters.get k).queue = [] ∧
    (t.clusters.get k).vc = none) ∧
  (∀ r : Region, (t.regions.get r).fy.queue = [] ∧ (t.regions.get r).fy.loaded = [] ∧
    (t.regions.get r).rings = (s.regions.get r).rings ∧ (t.regions.get r).counters = (s.regions.get r).counters) ∧
  t.link = s.link ∧ t.proto.reads = s.proto.reads ∧ t.proto.writes = s.proto.writes ∧
  (s.clocks = false ∨ (∀ x ∈ s.liveInsts, ownSlot x.2 = false) → t.mem.lagoon = s.mem.lagoon ∧ t.mem.shoal = s.mem.shoal)

/-- A token that the chiplet checks with RESULT `code` other than granted: the nonce ends, the refusal is counted,
and nothing else changes (R425). -/
def TokenRefused (s : State) (code : BitVec 4) : Prop :=
  ∀ e : Env, ∃ t, exec (.tokenGo e) s = .next t ∧ t.sec.dbgResult = code ∧ t.sec.level = s.sec.level ∧
    t.vault.nonceValid = false ∧ t.sec.tokenFails.toNat = min (2 ^ 32 - 1) (s.sec.tokenFails.toNat + 1) ∧
    t.sec.alarm = s.sec.alarm ∧ t.outbox = s.outbox ∧ t.mem = s.mem ∧ t.regions = s.regions ∧ t.clusters = s.clusters ∧
    t.power = s.power

/-- A plain copy of one block of 64 bytes (R240, R241): OP is COPY, one row of 64 elements of one byte, no transpose,
no padding, no multicast, nothing reserved, source and destination at whole blocks of this chiplet's lagoon. -/
def BlockCopy (s : State) (c : FerryCtx) (from_ to_ : Nat) : Prop :=
  c.op = 0 ∧ c.fmt = 0 ∧ c.rows = 1 ∧ c.planes = 1 ∧ c.cols = 64 ∧ c.trans = false ∧ c.padCols = 0 ∧ c.padRows = 0 ∧
    c.mc = 0 ∧ c.badFormat = false ∧ c.badPlace = false ∧ c.src < 2 ^ 56 ∧ c.dst < 2 ^ 56 ∧
    s.locate c.src = .lagoon from_ ∧ s.locate c.dst = .lagoon to_ ∧ from_ % 64 = 0 ∧ to_ % 64 = 0

/-- Region `r` can take up a context: its ferries run, one of them holds fewer than 16 contexts, and the next number
is new. -/
def MayTakeUp (s : State) (r : Region) : Prop :=
  s.ferriesRun r = true ∧ (∃ e0, e0 < 8 ∧ ((s.regions.get r).fy.onEngine none e0).length < 16) ∧
    ∀ c ∈ (s.regions.get r).fy.loaded, c.id ≠ (s.regions.get r).fy.nextId

/-- No block of region `r` has contexts that wait for room on an engine (R237). -/
def NoneWait (s : State) (r : Region) : Prop := ∀ x ∈ (s.regions.get r).fy.staged, x.todo = []

/-- The driver of a staging step that may act: its instance runs or drains, its region's ferries run, and a cluster
that drives is clocked and holds a position of the instance (R197, R204). -/
def MayStage (s : State) (r : Region) (slot : SlotNo) (lv drv : Nat) : Prop :=
  ((s.inst r slot).st = .running ∨ (s.inst r slot).st = .draining) ∧ drv < (if lv = 0 then 8 else 64) ∧
    s.ferriesRun (driverRegion lv drv) = true ∧
    (lv = 0 ∨ s.clusterOn (fin 63 drv) = true ∧ (s.clusters.get (fin 63 drv)).inst = some (r, slot))

/-- A block stands in the staging list of its driver. -/
def InStaging (s : State) (me : Region × SlotNo) (pat lv : Nat) (coords : List Nat) (slot : Nat) : Prop :=
  ∃ x ∈ (s.regions.get (driverRegion lv (coords.headD 64))).fy.staged,
    x.inst = me ∧ x.pat = pat ∧ x.level = lv ∧ x.coords = coords ∧ x.slot = slot

/-- Group `g` of an instance may take its next index, the leader being `p`: the instance runs, or drains with redo
entries left, or with the leader elsewhere (R188, R361, R372, R423). -/
def MayDraw (s : State) (me : Region × SlotNo) (g : Group) (p : Position) : Prop :=
  ((s.inst me.1 me.2).st = .running ∨
      (s.inst me.1 me.2).st = .draining ∧ (p.chiplet ≠ s.pk.id.toNat ∨ g.redo ≠ [])) ∧
    (s.inst me.1 me.2).faulting = 0 ∧ g.done = false ∧ g.ahead = none ∧
    s.alarmed = false ∧ (p.chiplet = s.pk.id.toNat → s.clusterOn (fin 63 (8 * p.region + p.cluster)) = true)

/-- The leader of a group with positions on other chiplets passes `v` to them, and no one else does (R188). -/
def PassedOn (s t : State) (me : Region × SlotNo) (c : Chart) (g v : Nat) : Prop :=
  t.outbox = s.outbox ++
    if s.leads c g = true ∧ (∃ p ∈ c.members g, p.chiplet ≠ s.pk.id.toNat)
    then [.toPkg (.issue (s.instName me.1 me.2) g v)] else []

/-- Tile `n` is issued to group `g`: every cluster of the group on this chiplet queues it, no other cluster changes, a
group with positions here holds it as the index drawn ahead, with `redo` left to do again, and the staged blocks that
it needs count as used (R139, R188, R200, R372). -/
def TileIssued (s t : State) (me : Region × SlotNo) (c : Chart) (g n : Nat) (redo : List Nat) : Prop :=
  PassedOn s t me c g n ∧ (t.inst me.1 me.2).st = (s.inst me.1 me.2).st ∧
    (∀ k, t.clusters.get k = if k ∈ s.groupClusters me g
      then (s.clusters.get k).queueTile c (s.inst me.1 me.2).bounds n else s.clusters.get k) ∧
    ((t.inst me.1 me.2).groups = (s.inst me.1 me.2).groups.map fun x => if x.g = g
      then { x with ahead := if s.groupClusters me g = [] then x.ahead else some n, redo := redo } else x) ∧
    ∀ (r : Region), ∀ x ∈ (t.regions.get r).fy.staged, ∀ k ∈ s.groupClusters me g, ∀ p : Pattern, x.inst = me →
      x.level < 2 → c.patterns[x.pat]? = some p → unitOf x.level k.1 ∈ p.units (x.coords.headD 0) →
      (t.clusters.get k).needsBlock c (s.inst me.1 me.2).bounds x.level x.coords = true → unitOf x.level k.1 ∈ x.used

/-- Group `g` has drawn the sentinel; a Running instance whose groups all have is Draining (R188, R206, R361). -/
def GroupEnded (s t : State) (me : Region × SlotNo) (c : Chart) (g : Nat) : Prop :=
  PassedOn s t me c g (2 ^ 64 - 1) ∧ t.clusters = s.clusters ∧
    (t.inst me.1 me.2).groups = ((s.inst me.1 me.2).groups.map fun x => if x.g = g then { x with done := true } else x) ∧
    (t.inst me.1 me.2).st =
      if ∀ x ∈ (s.inst me.1 me.2).groups, x.g = g ∨ x.done = true then .draining else (s.inst me.1 me.2).st

/-- An instance of this chiplet as the end of its run leaves it: with what other chiplets report, where positions lie
there (R362, R370, R371). -/
def State.joined (s : State) (r : Region) (k : SlotNo) (c : Chart) (far : Option FarEnd) : Inst :=
  if s.splitInst k c then far.elim (s.inst r k) fun f => (s.inst r k).join (s.leads c) f else s.inst r k

/-- The run of an instance is over at this chiplet: it drains, or all its groups here have drawn the sentinel and the
other chiplets have reported, or another chiplet owns it (R361; log 142). -/
def RunOver (s : State) (r : Region) (k : SlotNo) (c : Chart) (far : Option FarEnd) : Prop :=
  ((s.inst r k).st = .draining ∨
      (s.inst r k).st = .running ∧ s.groupsDone c (s.inst r k) = true ∧ (far ≠ none ∨ ownSlot k = false)) ∧
    (s.inst r k).faulting = 0 ∧ s.instQuiet r k = true ∧ (s.inst r k).settled = true ∧
    (s.splitInst k c = true → far ≠ none) ∧ s.alarmed = false ∧ (ownSlot k = true → s.regionActs r = true)

/-- The run of an instance ends with a fault (R147, R361, R371). -/
def FaultOver (s : State) (r : Region) (k : SlotNo) (c : Chart) (far : Option FarEnd) (lost : Bool) : Prop :=
  ((s.inst r k).st = .running ∨ (s.inst r k).st = .draining) ∧ (s.inst r k).faulting ≠ 0 ∧
    (s.splitInst k c = true → far ≠ none ∨ lost = true) ∧ s.instQuiet r k = true ∧ s.alarmed = false ∧
    (ownSlot k = true → s.regionActs r = true)

/-- An instance that comes to rest here hears no more, and its owner elsewhere hears of it (R147, R361, R371). -/
def OwnerHears (s t : State) (r : Region) (k : SlotNo) : Prop :=
  t.mem = s.mem ∧ t.outbox = s.outbox ++ [.toPkg (.rested (s.instName r k)
    ⟨(s.inst r k).tiles.toNat, (s.inst r k).faults.toNat, (s.inst r k).firstTile,
      (s.inst r k).groups.flatMap fun g => g.owed.map fun t => (g.g, t)⟩)]

/-- Instance `x` stands displaced, with its redo entries; a Stopped one has REASON 0x3 (R366). -/
def Displaced (s t : State) (x : Region × SlotNo) : Prop :=
  (t.inst x.1 x.2).displaced = true ∧ (t.inst x.1 x.2).st = (s.inst x.1 x.2).st ∧
    (t.inst x.1 x.2).redo = (s.inst x.1 x.2).redo ∧ ((s.inst x.1 x.2).st = .stopped → (t.inst x.1 x.2).reason = 3)

/-- Counter `n` of the chiplet (R206). -/
def State.counter (s : State) (n : Nat) : Counter :=
  (s.regions.get (fin 7 (n / 128))).counters.get (fin 127 (n % 128))

end Sys2Proof.Machine

open Sys2Proof Sys2Proof.Machine

/-- The queue's discipline: a step is exec of the command in front, on the queue's rest. That an empty queue
idles is the model's choice (log 3). -/
def Obligations.StepRunsFrontCommand : Prop :=
  (∀ (c : Instr) (rest : List Instr) (s : State),
    step { s with pending := c :: rest } = exec c { s with pending := rest }) ∧
  ∀ s : State, s.pending = [] → step s = .next s

/-- R18: no unit raises an exception, trap or interrupt. Every command has a next state in every state; the queue
of waiting commands is the model's own, and no command reads or writes it. -/
def Obligations.EveryCommandCompletes : Prop :=
  ∀ (c : Instr) (s : State), ∃ t, exec c s = .next t ∧ t.pending = s.pending

/-- The canonical form of the addressed memories is kept by every step: addresses strictly rise, no listed byte is
zero, and each poisoned block is listed once (the form is the model's; the memories are those of R224, R230, R239). -/
def Obligations.MemoriesStayCanonical : Prop :=
  ∀ s t : State, s.mem.ok = true → step s = .next t → t.mem.ok = true

/-- The registers after reset (R290, R319, R352, R360, R374, R396, R433), with empty memories (log 4). -/
def Obligations.ResetState : Prop :=
  State.reset.mem.ok = true ∧ State.reset.pk.stepping = 0xA1 ∧ State.reset.pk.upPort = 0xF ∧
  State.reset.pk.running = false ∧ State.reset.proto.fence = 0x7F ∧ State.reset.sec.alarm = 0 ∧
  State.reset.sec.keysLive = false ∧ State.reset.power.slackDelay = 16 ∧ State.reset.power.clusterDelay = 4 ∧
  State.reset.link.replayTo = 256 ∧
  (∀ (r : Region) (i : RingNo), State.reset.ring r i = Ring.reset) ∧
  (∀ (r : Region) (k : SlotNo), (State.reset.inst r k).st = .idle) ∧
  ∀ b : BundleNo, (State.reset.bundle b).state = 0

/-- R422: SEC_ALARM is held until a cold start or the removal of VDD_AO. Outside the phases of a start, no command
clears a source but a power loss that takes VDD_AO. -/
def Obligations.AlarmSurvivesOperation : Prop :=
  ∀ (c : Instr) (s t : State), s.pk.phase ≠ .inReset → s.pk.phase ≠ .standbyWait → s.pk.phase ≠ .starting →
    (∀ bt, c ≠ .powerLoss true bt) → exec c s = .next t →
    ∀ i, s.sec.alarm.getLsbD i = true → t.sec.alarm.getLsbD i = true

/-- PK_STEPPING names the silicon (R352): every step leaves it. -/
def Obligations.SteppingIsHardWired : Prop :=
  ∀ s t : State, step s = .next t → t.pk.stepping = s.pk.stepping

/-- R326, R327: reset by the pins, by the upstream clock, and by the ramp of the rails; a chiplet strapped member
ignores the pins (R320), and a clock that stopped after an LP_ACK is no loss (R326). -/
def Obligations.ResetKeepsTheAlwaysOnDomain : Prop :=
  ∀ s : State,
    (∀ pwrgood : Bool, s.pk.strap ≠ 0 → s.power.st ≠ .off →
      ∃ t, exec (.resetAssert pwrgood) s = .next t ∧ ResetFrom s t ∧ t.pk.rstLow = true ∧
        t.pk.pwrLow = (s.pk.pwrLow || pwrgood)) ∧
    (∀ pwrgood : Bool, s.pk.strap = 0 → exec (.resetAssert pwrgood) s = .next s) ∧
    (s.pk.tree = true → s.pk.lead = false → s.upstreamAsleep = false →
      ∃ t, exec .upstreamClockLoss s = .next t ∧ ResetFrom s t) ∧
    (s.upstreamAsleep = true → exec .upstreamClockLoss s = .next s) ∧
    (s.power.st = .off → ∃ t, exec .powerUp s = .next t ∧ ResetFrom s t ∧ t.pk.rstLow = true ∧
      (s.vault.btOff = true → t.vault.pufFresh = true ∧ t.vault.btOff = false))

/-- R404, R422, R440: what goes with VDD_AO and with VDD_BT. -/
def Obligations.PowerLossTakesItsRails : Prop :=
  ∀ (ao bt : Bool) (s : State), ∃ t, exec (.powerLoss ao bt) s = .next t ∧ t.power.st = .off ∧
    t.pk.phase = .inReset ∧ t.pk.pwrLow = true ∧ t.vault.seed = none ∧
    (ao = true → t.sec.alarm = 0 ∧ t.life.counts = Counts.zero) ∧
    (ao = false → t.sec.alarm = s.sec.alarm ∧ t.life.counts = s.life.counts) ∧
    (bt = true → t.vault.latch = none ∧ t.vault.btOff = true) ∧ (bt = false → t.vault.latch = s.vault.latch)

/-- R31, R321, R328, R422, R476: RST_N samples the strap once per reset; the kind of the start, cold when PWRGOOD
was low, clears an alarm or stops an Alarmed lead. -/
def Obligations.StrapSettlesTheRole : Prop :=
  ∀ (vct : Nat) (s : State),
    (s.pk.phase = .inReset → s.power.st ≠ .off → s.pk.rstLow = true →
      (∃ t, exec (.rstNDeassert 0 vct) s = .next t ∧ t.pk = { s.pk with strap := 0, rstLow := false } ∧
        t.sec = s.sec ∧ t.mem = s.mem) ∧
      (s.pk.pwrLow = true ∨ s.sec.alarm = 0 →
        ∃ t, exec (.rstNDeassert 1 vct) s = .next t ∧ t.pk.phase = .starting ∧ t.pk.lead = true ∧
          t.pk.acting = false ∧ t.pk.strap = 1 ∧ t.pk.cold = s.pk.pwrLow ∧ t.sec.alarm = 0 ∧ t.ao.cc = 0 ∧
          t.mem = s.mem) ∧
      (s.pk.pwrLow = false → s.sec.alarm ≠ 0 →
        ∃ t, exec (.rstNDeassert 1 vct) s = .next t ∧ t.pk.phase = .stopped ∧ t.sec = s.sec ∧ t.mem = s.mem) ∧
      (∃ t, exec (.rstNDeassert 2 vct) s = .next t ∧ t.pk.phase = .standbyWait ∧ t.pk.strap = 2 ∧
        t.pk.cold = s.pk.pwrLow ∧ t.sec = s.sec ∧ t.mem = s.mem) ∧
      (∃ t, exec (.rstNDeassert 3 vct) s = .next t ∧ t.pk.phase = .stopped ∧ t.sec = s.sec ∧ t.mem = s.mem)) ∧
    (s.pk.rstLow = false → ∀ strap, exec (.rstNDeassert strap vct) s = .next s) ∧
    (s.pk.phase = .standbyWait →
      (s.pk.cold = true ∨ s.sec.alarm = 0 →
        ∃ t, exec (.standbyTimeout true) s = .next t ∧ t.pk.phase = .starting ∧ t.pk.lead = true ∧
          t.pk.acting = true ∧ t.sec.alarm = 0 ∧ t.mem = s.mem) ∧
      (s.pk.cold = false → s.sec.alarm ≠ 0 →
        ∃ t, exec (.standbyTimeout true) s = .next t ∧ t = { s with pk := { s.pk with phase := .stopped } }) ∧
      exec (.standbyTimeout false) s = .next s)

/-- R322: the first peer port with a clock, the lower-numbered of two, becomes the upstream port, and all clocks are
driven. -/
def Obligations.ForwardedClockMakesAMember : Prop :=
  ∀ (ports : List Port) (p : Port) (s : State), s.takesClock = true → isPeer p = true → p ∈ ports →
    (∀ q ∈ ports, isPeer q = true → p ≤ q) →
    ∃ t, exec (.forwardedClockArrival ports) s = .next t ∧ t.pk.upPort = BitVec.ofNat 4 p.1 ∧ t.pk.phase = .starting ∧
      t.pk.step = 7 ∧ t.pk.lead = false ∧ t.pk.pllLock = true ∧ t.pk.tree = true ∧ t.pk.yielded = (s.pk.strap == 1) ∧
      t.mem = s.mem ∧ (∀ b : BundleNo, (t.bundle b).state = 1 ∧ Out.clock b true ∈ t.outbox) ∧
      ∀ q : Port, (t.port q).state = 1

/-- R341, R347: the steps of start-up, on lead and member, when their conditions hold; the halts of steps 1 to 4 and
13, with alarm SIGNATURE at a signature that fails (R402). Forced Slack suspends the sequence (R348). -/
def Obligations.LeadStepsAdvance : Prop :=
  ∀ (e : StartEnv) (s : State), s.pk.phase = .starting →
    (s.power.forced = true → exec (.startupStepAdvance e) s = .next s) ∧
    (s.power.forced = false →
      (s.pk.step = 0 → e.romOk = true → StepDone e s 1 fun t => t.mem = s.mem ∧ t.link = s.link) ∧
      (s.pk.step = 0 → e.romOk = false → HaltsWith (.startupStepAdvance e) s s.pk.id 1 0) ∧
      (s.pk.step = 1 → e.refclkOk = true → e.pllLock = true → StepDone e s 2 fun t =>
        t.pk.pllLock = true ∧ t.pk.refclkOk = true ∧ t.pk.aoTrimmed = true ∧ t.ao.trim = e.trim) ∧
      (s.pk.step = 1 → e.refclkOk = false → HaltsWith (.startupStepAdvance e) s s.pk.id 2 0) ∧
      (s.pk.step = 2 → e.flashOk = true → e.readOk = true → StepDone e s 3 fun t =>
        t.site.image = imageOf e.flash ∧ t.mem = s.mem) ∧
      (s.pk.step = 2 → e.flashOk = false ∨ e.readOk = false → HaltsWith (.startupStepAdvance e) s s.pk.id 4 0) ∧
      (s.pk.step = 3 → e.readOk = true → imgHeaderOk s.site.image e.density = true → imgDirOk s.site.image = true →
        s.power.st ≠ .off → ∃ t, exec (.startupStepAdvance e) s = .next t ∧
          if imgSigned s.site.image = true
          then t.pk.step = 4 ∧ t.pk.phase = .starting ∧ t.mem = s.mem ∧ t.site = s.site
          else t.pk.halt = ⟨true, s.pk.id, 6, 0⟩ ∧ t.pk.phase = .halted ∧ t.pk.step = 3 ∧
            t.sec.alarm.getLsbD 4 = true ∧ t.sec.keysLive = false) ∧
      (s.pk.step = 3 → e.readOk = true → imgHeaderOk s.site.image e.density = false →
        HaltsWith (.startupStepAdvance e) s s.pk.id 5 0) ∧
      (s.pk.step = 4 → e.readOk = true → imgBadDigest s.site.image = none → StepDone e s 5 fun t => t.mem = s.mem) ∧
      (s.pk.step = 5 → imageFault s.site.image = none → StepDone e s 6 fun t => t.mem = s.mem) ∧
      (s.pk.step = 6 → StepDone e s 7 fun t => t.pk.tree = true ∧ t.mem = s.mem ∧
        ∀ b : BundleNo, (t.bundle b).state = 1 ∧ Out.clock b true ∈ t.outbox) ∧
      (s.pk.step = 7 → s.trained = true → StepDone e s 8 fun t => t.mem = s.mem ∧ t.link = s.link) ∧
      (s.pk.step = 8 → s.exchanged = true → s.pk.lead = false → s.pk.idValid = true →
        StepDone e s 9 fun t => t.mem = s.mem ∧ t.link = s.link) ∧
      (s.pk.step = 9 → s.pk.lead = false → StepDone e s 10 fun t => t.proto.pkgFeat = e.pkgFeat ∧ t.mem = s.mem) ∧
      (s.pk.step = 10 → s.stackFailed 0 = false → StepDone e s 11 fun t =>
        t.proto.stackWays = (if s.stackFailed 1 then 1 else 0) ∧ t.mem = s.mem) ∧
      (s.pk.step = 12 → e.baseFail = none → isthFault e.bonds = none → StepDone e s 13 fun t =>
        t.mem.lagoon = [] ∧ t.mem.shoal = [] ∧ t.site.bonds = e.bonds) ∧
      (∀ x, s.pk.step = 12 → e.baseFail = some x → ∃ t, exec (.startupStepAdvance e) s = .next t ∧
        t.pk.halt = ⟨true, s.pk.id, 0x10, BitVec.ofNat 16 (256 * s.pk.id.toNat + x.toNat)⟩ ∧ t.pk.phase = .halted) ∧
      (s.pk.step = 14 → StepDone e s 15 fun t => t.mem = s.mem) ∧
      (s.pk.step = 16 → s.pk.lead = false ∨ e.othersReady = true → ∃ t, exec (.startupStepAdvance e) s = .next t ∧
        t.pk.step = 17 ∧ t.pk.running = true ∧ t.pk.phase = .running ∧ t.pk.startTime = e.aoCycles ∧ t.mem = s.mem))

/-- R345, R346, R347: halts by time limit and by report; the report of the lowest ID counts (R346), and a stop
without a code stops the sequence (R476). -/
def Obligations.StartLimitsHalt : Prop :=
  ∀ s : State, s.pk.phase = .starting →
    (s.power.forced = false →
      (s.pk.lead = true → s.pk.step = 1 → HaltsWith .pllLockTimeout s s.pk.id 3 0) ∧
      (∀ r : Region, s.pk.step = 15 → s.site.fwStarted = 0xFF → s.site.fwReady.getLsbD r.1 = false →
        HaltsWith (.firmwareReadyTimeout r) s s.pk.id 0x11 (BitVec.ofNat 16 (256 * s.pk.id.toNat + r.1))) ∧
      (∀ w v : Fin 2, w ≠ v → s.pk.step = 10 → s.site.stackBad.getLsbD v.1 = true →
        HaltsWith (.stackReadyTimeout w) s s.pk.id 0xC (BitVec.ofNat 16 (256 * s.pk.id.toNat)))) ∧
    (∀ (chip : BitVec 3) (code : BitVec 8) (detail : BitVec 16), s.pk.lead = true → code ≠ 9 →
      HaltsWith (.haltReport [(chip, code, detail)]) s chip code detail ∧
      ∀ (chip' : BitVec 3) (code' : BitVec 8) (detail' : BitVec 16), code' ≠ 9 → chip.toNat < chip'.toNat →
        HaltsWith (.haltReport [(chip, code, detail), (chip', code', detail')]) s chip code detail ∧
        HaltsWith (.haltReport [(chip', code', detail'), (chip, code, detail)]) s chip code detail) ∧
    (∀ reports, s.pk.lead = false ∨ reports = [] →
      ∃ t, exec (.haltReport reports) s = .next t ∧ t.pk.phase = .stopped ∧ t.pk.halt = s.pk.halt ∧ t.mem = s.mem)

/-- R345: one failed stack. R350: REFCLK lost at the lead, with the tree driven and before it. -/
def Obligations.StackAndClockLosses : Prop :=
  ∀ s : State,
    (∀ w v : Fin 2, w ≠ v → s.pk.phase = .starting → s.power.forced = false → s.pk.step = 10 →
      s.site.stackBad = 0 → (s.port ⟨v.1, by omega⟩).state = 2 →
      ∃ t, exec (.stackReadyTimeout w) s = .next t ∧ t.pk = s.pk ∧ t.site.stackBad.getLsbD w.1 = true ∧
        t.proto.stackWays = BitVec.ofNat 2 (if w = 0 then 2 else 1)) ∧
    (s.pk.lead = true → s.pk.refclkOk = true →
      (s.pk.tree = true → ∃ t, exec .refclkLoss s = .next t ∧ t.pk.refclkOk = false ∧ t.pk.pllLock = false ∧
        t.pk.phase = .stopped ∧ t.pk.tree = false ∧ t.power.regionsOn = 0 ∧ t.power.clustersOn = 0 ∧
        ∀ b : BundleNo, Out.clock b false ∈ t.outbox) ∧
      (s.pk.tree = false → s.pk.phase = .starting → HaltsWith .refclkLoss s s.pk.id 2 0))

/-- R342, R422, R476: ID assignment. -/
def Obligations.PkAssignNamesOnce : Prop :=
  ∀ (v : W32) (e : Env) (s : State),
    (s.pk.idValid = true → s.pk.lead = false → exec (.pkAssign v e) s = .next s) ∧
    (s.pk.phase ≠ .starting → exec (.pkAssign v e) s = .next s) ∧
    (s.pk.idValid = false → s.pk.phase = .starting → s.pk.lead = false →
      (v.getLsbD 3 = true ∨ s.sec.alarm = 0 →
        ∃ t, exec (.pkAssign v e) s = .next t ∧ t.pk.idValid = true ∧ t.pk.id = BitVec.ofNat 3 v.toNat ∧
          t.pk.route = e.route ∧ t.pk.cold = v.getLsbD 3 ∧ t.sec.alarm = 0 ∧
          (v.getLsbD 3 = true → t.sec.erased = false) ∧ t.link = s.link ∧ t.mem = s.mem) ∧
      (v.getLsbD 3 = false → s.sec.alarm ≠ 0 →
        ∃ t, exec (.pkAssign v e) s = .next t ∧ t.pk.phase = .stopped ∧ t.pk.idValid = false ∧
          t.sec.alarm = s.sec.alarm)) ∧
    (s.pk.phase = .starting → s.pk.lead = true → s.pk.tree = true → HaltsWith (.pkAssign v e) s s.pk.id 8 0)

/-- R265 steps 3 to 7. -/
def Obligations.TrainingAdvances : Prop :=
  ∀ (b : BundleNo) (s : State), (s.bundle b).state = 1 →
    ((s.bundle b).step = 1 →
      ∃ t, exec (.bundleLockDone b) s = .next t ∧ LinkOnly s t ∧ t.bundle b = { s.bundle b with step := 4 } ∧
        t.outbox = s.outbox ++ [.prbs b prbsSeeds] ∧ t.link.ports = s.link.ports ∧
        ∀ c, c ≠ b → t.bundle c = s.bundle c) ∧
    (∀ bad, (s.bundle b).step = 4 →
      ∃ t, exec (.laneAlignDone b bad) s = .next t ∧ LinkOnly s t ∧ t.outbox = s.outbox ∧
        t.bundle b = { s.bundle b with step := 6, alignBad := bad } ∧ t.link.ports = s.link.ports ∧
        ∀ c, c ≠ b → t.bundle c = s.bundle c) ∧
    (∀ bad clkOk, (s.bundle b).step = 6 → (s.bundle b).mapGot = false →
      ∃ t w, exec (.laneAcceptanceDone b bad clkOk) s = .next t ∧ LinkOnly s t ∧ (t.bundle b).state = 1 ∧
        (t.bundle b).step = 7 ∧ (t.bundle b).mapSent = true ∧
        (t.bundle b).rxNew = TestedMap (s.bundle b).rx (bad ||| (s.bundle b).alignBad) clkOk ∧
        (t.bundle b).rx = (s.bundle b).rx ∧ (t.bundle b).tx = (s.bundle b).tx ∧
        t.outbox = s.outbox ++ [.mapMsg b w (plainUis (s.bundle b).trk (mapBits w)).1] ∧ mapGood w = true ∧
        w.extractLsb' 0 34 = (t.bundle b).rxNew.fail ∧ w.extractLsb' 34 2 = (t.bundle b).rxNew.mode ∧
        t.link.ports = s.link.ports ∧ ∀ c, c ≠ b → t.bundle c = s.bundle c)

/-- R35, R262, R264, R265 steps 2, 7 and 8, R266, R272, for a bundle in training: two good copies are read from any
voting set, and anything that `readMap` does not read changes nothing. -/
def Obligations.MapsLeadToSyncOrRetirement : Prop :=
  ∀ (b : BundleNo) (e : Env) (s : State),
    ((s.bundle b).voters ≠ [] → ∀ (w : W64) (k : BitVec 7), mapGood w = true →
      (s.bundle b).readMap ((plainUis k (mapBits w)).1.take 128) = some w) ∧
    (∀ uis, (s.bundle b).readMap uis = none → exec (.mapMessageAccepted b uis e) s = .next s) ∧
    ((s.bundle b).state = 1 → (s.bundle b).why = .training →
      (∀ (uis : List (BitVec 36)) (m : W64), (s.bundle b).readMap uis = some m → 4 ≤ (s.bundle b).step →
        (s.bundle b).mapGot = false →
        ∃ t, exec (.mapMessageAccepted b uis e) s = .next t ∧
          (t.bundle b).txNew = ⟨m.extractLsb' 0 34, m.extractLsb' 34 2⟩ ∧
          (t.bundle b).rxNew = (s.bundle b).rxNew ∧ t.mem = s.mem ∧ t.regions = s.regions ∧
          ((s.bundle b).mapSent = false → (t.bundle b).mapGot = true ∧ (t.bundle b).state = 1 ∧
            (t.bundle b).step = (s.bundle b).step) ∧
          ((s.bundle b).mapSent = true → (s.bundle b).rxNew.mode.toNat < 2 → (m.extractLsb' 34 2).toNat < 2 →
            (t.bundle b).state = 1 ∧ (t.bundle b).step = 8 ∧ (t.bundle b).nextSeq = 0 ∧ (t.bundle b).expSeq = 0 ∧
              (t.bundle b).rxScr = scrSeeds ∧ (t.bundle b).rx = (s.bundle b).rxNew ∧
              (t.bundle b).tx = ⟨m.extractLsb' 0 34, m.extractLsb' 34 2⟩) ∧
          ((s.bundle b).mapSent = true → 2 ≤ (s.bundle b).rxNew.mode.toNat ∨ 2 ≤ (m.extractLsb' 34 2).toNat →
            (t.bundle b).state = 5)) ∧
      (∀ got : List BundleNo, (s.bundle b).step = 1 → b ∉ got →
        ((∃ c ∈ portBundles (bundlePort b), c ∈ got ∨ (s.bundle c).state ≠ 1 ∨ 1 < (s.bundle c).step) →
          ∃ t, exec (.bundleClockTimeout b got) s = .next t ∧ (t.bundle b).state = 5 ∧ t.mem = s.mem) ∧
        ((∀ c ∈ portBundles (bundlePort b), c ∉ got ∧ (s.bundle c).state = 1 ∧ (s.bundle c).step ≤ 1) →
          ∃ t, exec (.bundleClockTimeout b got) s = .next t ∧ (t.port (bundlePort b)).state = 0 ∧
            (∀ c ∈ portBundles (bundlePort b), (t.bundle c).state = 0) ∧ LinkOnly s t)) ∧
      (4 ≤ (s.bundle b).step → (s.bundle b).mapGot = false →
        ∃ t, exec (.prbsMapTimeout b) s = .next t ∧ (t.bundle b).state = 5 ∧ t.mem = s.mem) ∧
      ((s.bundle b).syncing = true → ∃ t, exec (.syncTimeout b e) s = .next t ∧ (t.bundle b).state = 5 ∧ t.mem = s.mem))

/-- R259, R260, R270: a flit that one end puts on the lanes is the flit that the other reads from them, on every lane
map that can run, whatever the failed lanes are. R271, R272, R274, R275, R278: what a bundle does with a flit read. A
diagnosis that bad flits bring about is R280's. -/
def Obligations.FlitsAreDeliveredOnceInOrder : Prop :=
  (∀ (m : LaneMap) (v : Vector (BitVec 23) 32) (k : BitVec 7) (flit : List Byte), m.mode = modeOf m.fail →
    m.mode.toNat < 2 → flit.length = 272 →
    decodeUis m v (codeUis m true v k (uiWords m flit)).1 = flit ∧
      framed m.uis (codeUis m true v k (uiWords m flit)).1 = true ∧
      (codeUis m true v k (uiWords m flit)).2.1 = scrAfter v m.uis) ∧
  ∀ (b : BundleNo) (uis : List (BitVec 36)) (e : Env) (s : State),
    ((s.bundle b).state = 2 →
      (∀ flit seq ack nak, FlitRead (s.bundle b) uis flit 1 seq ack nak →
        (seq = (s.bundle b).expSeq →
          ∃ t, exec (.flitReceived b uis e) s = .next t ∧ (t.bundle b).expSeq = (s.bundle b).expSeq + 1 ∧
            (nak = false → (t.bundle b).flitsRx = (s.bundle b).flitsRx + 1) ∧
            (protoKind (flitBody flit).proto = 2 → protoClass (flitBody flit).proto < 2 →
              s.passesOn (bundlePort b) (flitBody flit) = false →
              (t.port (bundlePort b)).payWait = (s.port (bundlePort b)).payWait ++ [flitBody flit] ∧
              (t.port (bundlePort b)).inbox = (s.port (bundlePort b)).inbox ∧ t.mem = s.mem)) ∧
        (seq ≠ (s.bundle b).expSeq → nak = false →
          ∃ t, exec (.flitReceived b uis e) s = .next t ∧ NothingTaken s t b ∧
            (64 ≤ ((s.bundle b).expSeq - 1 - seq).toNat → (s.bundle b).nakFor ≠ some (s.bundle b).expSeq →
              NakSent t b))) ∧
      ((s.bundle b).readFlit uis = none →
        ∃ t, exec (.flitReceived b uis e) s = .next t ∧ NothingTaken s t b ∧
          (t.bundle b).crcErr = (s.bundle b).crcErr + 1 ∧
          ((s.bundle b).badRun < 63 → (s.bundle b).nakFor ≠ some (s.bundle b).expSeq → NakSent t b) ∧
          (63 ≤ (s.bundle b).badRun → (t.bundle b).state = 3))) ∧
    ((s.bundle b).state ≠ 2 → (s.bundle b).syncing = false → exec (.flitReceived b uis e) s = .next s) ∧
    ((s.bundle b).syncing = true →
      ((s.bundle b).readFlit uis = none → (s.bundle b).nakFor ≠ some (s.bundle b).expSeq →
        ∃ t, exec (.flitReceived b uis e) s = .next t ∧ NothingTaken s t b ∧ NakSent t b) ∧
      ((s.bundle b).why = .training → (s.bundle b).diagAfter = false →
        ∀ flit ack, FlitRead (s.bundle b) uis flit 0 (s.bundle b).expSeq ack false →
        ∃ t, exec (.flitReceived b uis e) s = .next t ∧ t.mem = s.mem ∧
          (t.bundle b).state = (if 15 ≤ (s.bundle b).goodRun then 2 else (s.bundle b).state)))

/-- R279, for timeouts and for NAKs; the NAK and the ACK come in IDLE flits with the expected SEQ. -/
def Obligations.EightReplaysBeginADiagnosis : Prop :=
  ∀ (b : BundleNo) (e : Env) (s : State), (s.bundle b).state = 2 → (s.bundle b).held ≠ [] →
    (∃ t, exec (.replayTimeout b) s = .next t ∧
      ((s.bundle b).replays + 1 < 8 → (t.bundle b).state = 2 ∧ (t.bundle b).replays = (s.bundle b).replays + 1) ∧
      (8 ≤ (s.bundle b).replays + 1 → (t.bundle b).state = 3)) ∧
    (∀ uis flit ack, FlitRead (s.bundle b) uis flit 0 (s.bundle b).expSeq ack true →
      (∀ f ∈ (s.bundle b).held, f.1 ≠ ack) →
      ∃ t, exec (.flitReceived b uis e) s = .next t ∧
        ((s.bundle b).replays + 1 < 8 → (t.bundle b).state = 2 ∧ (t.bundle b).replays = (s.bundle b).replays + 1) ∧
        (8 ≤ (s.bundle b).replays + 1 → (t.bundle b).state = 3)) ∧
    ∀ uis flit ack, FlitRead (s.bundle b) uis flit 0 (s.bundle b).expSeq ack false →
      (∃ f ∈ (s.bundle b).held, f.1 = ack) →
      ∃ t, exec (.flitReceived b uis e) s = .next t ∧ (t.bundle b).replays = 0 ∧ (t.bundle b).state = 2

/-- R280, R281, R285. The last bundle of a port takes the port down (R283), shown with no request open. -/
def Obligations.DiagnosisAndRetirement : Prop :=
  ∀ (b : BundleNo) (e : Env) (s : State),
    ((s.bundle b).state = 2 →
      ∃ t, exec (.diagReq b) s = .next t ∧ LinkOnly s t ∧ (t.bundle b).state = 3 ∧ (t.bundle b).step = 3 ∧
        (t.bundle b).why = .diagnosis ∧ (t.bundle b).held = (s.bundle b).held ∧ (t.bundle b).rx = (s.bundle b).rx ∧
        t.outbox.length = s.outbox.length + 17 ∧ Out.prbs b prbsSeeds ∈ t.outbox ∧
        ∀ c, c ≠ b → t.bundle c = s.bundle c) ∧
    ((s.bundle b).state ≠ 2 → exec (.diagReq b) s = .next s) ∧
    (∀ bad clkOk cc, (s.bundle b).state = 3 → (s.bundle b).step = 3 → (s.bundle b).mapGot = false →
      ∃ t, exec (.diagCheckDone b bad clkOk cc e) s = .next t ∧ (t.bundle b).state = 3 ∧ (t.bundle b).step = 5 ∧
        (t.bundle b).mapSent = true ∧ (t.bundle b).held = (s.bundle b).held ∧ (t.bundle b).rx = (s.bundle b).rx ∧
        (t.bundle b).rxNew = TestedMap (s.bundle b).rx (bad ||| (s.bundle b).alignBad) clkOk ∧
        ∀ c, c ≠ b → t.bundle c = s.bundle c) ∧
    ((s.bundle b).state = 3 → (s.bundle b).mapGot = false →
      ((∃ c ∈ portBundles (bundlePort b), c ≠ b ∧ ((s.bundle c).state = 2 ∨ (s.bundle c).state = 3)) →
        ∃ t, exec (.diagMapTimeout b e) s = .next t ∧ (t.bundle b).state = 5 ∧
          BitVec.ofNat 8 (bundleLocal b) ∈ (t.port (bundlePort b)).retiring ∧
          (t.port (bundlePort b)).state = (s.port (bundlePort b)).state) ∧
      ((∀ c ∈ portBundles (bundlePort b), c ≠ b → (s.bundle c).counted = false) → s.outstanding = [] →
        s.proto.waiting = [] →
        ∃ t, exec (.diagMapTimeout b e) s = .next t ∧ (t.bundle b).state = 5 ∧ (t.port (bundlePort b)).state = 4)) ∧
    (∀ (p : Port) (lb : BitVec 8) (lastSeq : BitVec 12), portBundle p lb.toNat = some b → (s.bundle b).state ≠ 0 →
      (s.port p).state ≠ 4 → (∃ c ∈ portBundles p, c ≠ b ∧ (s.bundle c).counted = true) →
      ∃ t, exec (.retire p lb lastSeq e) s = .next t ∧ (t.bundle b).state = 5 ∧ (t.bundle b).held = []) ∧
    ∀ (p : Port) (lb : BitVec 8), ∃ t, exec (.retireAck p lb) s = .next t ∧ LinkOnly s t ∧ t.outbox = s.outbox ∧
      lb ∉ (t.port p).retiring ∧ (∀ x ∈ (s.port p).retiring, x ≠ lb → x ∈ (t.port p).retiring) ∧
      t.link.bundles = s.link.bundles

/-- R287, R288. -/
def Obligations.LowPowerKeepsTheLink : Prop :=
  ∀ (b : BundleNo) (s : State),
    ((s.bundle b).state = 2 → (s.bundle b).held = [] →
      ((s.bundle b).lp = 1 → ∃ t, exec (.replayBufferEmpty b) s = .next t ∧ LinkOnly s t ∧ (t.bundle b).state = 2 ∧
        (t.bundle b).lp = 3 ∧ t.outbox.length = s.outbox.length + 1) ∧
      ((s.bundle b).lp = 2 → ∃ t, exec (.replayBufferEmpty b) s = .next t ∧ LinkOnly s t ∧ (t.bundle b).state = 4 ∧
        Out.clock b false ∈ t.outbox) ∧
      ∃ t, exec (.lpReq b) s = .next t ∧ LinkOnly s t ∧ (t.bundle b).state = 4 ∧ Out.clock b false ∈ t.outbox ∧
        (t.bundle b).rx = (s.bundle b).rx ∧ (t.bundle b).tx = (s.bundle b).tx ∧
        (t.bundle b).expSeq = (s.bundle b).expSeq ∧ (t.bundle b).nextSeq = (s.bundle b).nextSeq) ∧
    ((s.bundle b).held ≠ [] → exec (.replayBufferEmpty b) s = .next s ∧
      ((s.bundle b).state = 2 → exec (.lpReq b) s = .next (s.onBundle b fun y => { y with lp := 2 }))) ∧
    ((s.bundle b).state = 2 → (s.bundle b).lp = 3 →
      ∃ t, exec (.lpAck b) s = .next t ∧ LinkOnly s t ∧ (t.bundle b).state = 4 ∧ Out.clock b false ∈ t.outbox ∧
        ((∀ c ∈ portBundles (bundlePort b), c ≠ b → (s.bundle c).state ≠ 2 ∧ (s.bundle c).state ≠ 3) →
          (s.port (bundlePort b)).state = 2 → (t.port (bundlePort b)).state = 3)) ∧
    ((s.bundle b).lp ≠ 3 → exec (.lpAck b) s = .next s) ∧
    ∀ bad, (s.bundle b).state = 4 → (s.bundle b).mapSent = false →
      ∃ t w uis, exec (.lpExit b bad) s = .next t ∧ LinkOnly s t ∧ (t.bundle b).mapSent = true ∧
        (t.bundle b).mapGot = false ∧ (t.bundle b).why = .lpExit ∧ (t.bundle b).rx = (s.bundle b).rx ∧
        (t.bundle b).tx = (s.bundle b).tx ∧
        (t.bundle b).expSeq = (s.bundle b).expSeq ∧ (t.bundle b).nextSeq = (s.bundle b).nextSeq ∧
        (t.bundle b).held = (s.bundle b).held ∧
        t.outbox = s.outbox ++ [.clock b true, .prbs b prbsSeeds, .mapMsg b w uis] ∧ mapGood w = true ∧
        w.extractLsb' 0 34 = (s.bundle b).rx.fail ∧ w.extractLsb' 34 2 = (s.bundle b).rx.mode ∧
        (bad = 0 → (t.bundle b).diagAfter = false) ∧ (bad.getLsbD 34 = true → (t.bundle b).diagAfter = true)

/-- R296, R299, R300, R306, R309, R319, for a CAP or CAPACK that is alone in the port's inbox. A port that goes down
is shown with no request open. -/
def Obligations.CapabilitiesAndCredits : Prop :=
  ∀ (p : Port) (e : Env) (s : State),
    (∀ m : RxMsg, (s.port p).inbox = [[m]] → m.op = 0x10 →
      ((s.port p).state ≠ 2 → exec (.cap p e) s = .next s) ∧
      ((s.port p).state = 2 → testBit (sub m.record 5 1) (portProfile p) = true →
        ∃ t, exec (.cap p e) s = .next t ∧ (t.port p).capGot = true ∧ (t.port p).partner = m.record ∧
          (t.port p).inbox = [] ∧ (t.proto.pfeat.get p).toNat = sub m.record 12 4 ∧
          ((t.proto.pid.get p).extractLsb' 0 16).toNat = sub m.record 0 2 ∧
          (t.port p).state = 2 ∧ t.mem = s.mem ∧ t.regions = s.regions) ∧
      ((s.port p).state = 2 → testBit (sub m.record 5 1) (portProfile p) = false → s.outstanding = [] →
        s.proto.waiting = [] → ∃ t, exec (.cap p e) s = .next t ∧ (t.port p).state = 4)) ∧
    (s.due p (fun m => m.op == 0x10) = none → exec (.cap p e) s = .next s) ∧
    (∀ m : RxMsg, (s.port p).inbox = [[m]] → m.op = 0x11 → (s.port p).capSent = true →
      ∃ t, exec (.capack p) s = .next t ∧ (t.port p).capAcked = true ∧ (t.port p).inbox = [] ∧
        (t.port p).state = (s.port p).state ∧ t.mem = s.mem ∧ t.proto = s.proto) ∧
    ((s.port p).capAcked = true → exec (.capRepeatTimer p) s = .next s ∧ exec (.capTimeout p e) s = .next s) ∧
    ((s.port p).state = 2 → (s.port p).capSent = true → (s.port p).capAcked = false →
      (∃ t, exec (.capRepeatTimer p) s = .next t ∧ OneFlitMore s t p ∧ t.mem = s.mem ∧ t.proto = s.proto) ∧
      (s.outstanding = [] → s.proto.waiting = [] → ∃ t, exec (.capTimeout p e) s = .next t ∧ (t.port p).state = 4)) ∧
    ((∃ b ∈ portBundles p, (s.bundle b).state = 2) →
      ∃ t, exec (.creditReturnTimer p) s = .next t ∧ (t.port p).returned = (s.port p).freed ∧
        (t.port p).freed = (s.port p).freed ∧ (t.port p).ticks = (s.port p).ticks + 1 ∧ t.mem = s.mem ∧
        t.proto = s.proto) ∧
    ((∀ b ∈ portBundles p, (s.bundle b).state ≠ 2) → ∃ t, exec (.creditReturnTimer p) s = .next t ∧
      t.outbox = s.outbox ∧ t.mem = s.mem ∧ t.proto = s.proto)


/-- R220, R222, R226, R227, R296, R297, R309 for the lagoon of this chiplet. -/
def Obligations.LagoonRequestsAreServed : Prop :=
  ∀ (p : Port) (q : Req) (e : Env) (s : State), AtPeer s p q →
    (∀ off, InBlock q.addr.toNat q.len → s.locate q.addr.toNat = .lagoon off →
      (CleanSpan e s off q.len →
        (Waits s p 1 0 q → ReadsFrom (.rd p q e) p q 1 false s .ok 0 (memReadN s.mem.lagoon off q.len)) ∧
        (∀ data, Waits s p 2 0 q → DataOf s p q data → StoresAt (.wr p q e) p q 2 false s off (storedBytes q data)) ∧
        (q.len ≤ 8 →
          (Waits s p 3 0 q → StoresAt (.wrs p q e) p q 3 false s off (natToBytes q.len q.op0.toNat)) ∧
          (Waits s p 5 0 q → StoresAt (.dbell p q e) p q 5 false s off (natToBytes q.len q.op0.toNat)))) ∧
      (off / 64 * 64 = off → q.len ≤ 64 → s.poisoned (off / 64) = true → Waits s p 1 0 q →
        ∃ data, ReadsFrom (.rd p q e) p q 1 false s .poison 0 data)) ∧
    (¬ InBlock q.addr.toNat q.len →
      (Waits s p 1 0 q → ReadsFrom (.rd p q e) p q 1 false s .error 0 []) ∧
      ∀ data, Waits s p 2 0 q → DataOf s p q data → ReadsFrom (.wr p q e) p q 2 false s .error 0 []) ∧
    (8 < q.len → (Waits s p 3 0 q → ReadsFrom (.wrs p q e) p q 3 false s .error 0 []) ∧
      (Waits s p 5 0 q → ReadsFrom (.dbell p q e) p q 5 false s .error 0 [])) ∧
    ((s.takePayload p 0 q.src.toNat q.tag.toNat).2 = none → exec (.wr p q e) s = .next s) ∧
    ∀ test : W64, InBlock q.addr.toNat q.len → Waits s p 8 0 q →
      (s.hasFeature 2 = true → ReadsFrom (.tsb p q test) p q 8 false s .ok test.toNat []) ∧
      (s.hasFeature 2 = false → ReadsFrom (.tsb p q test) p q 8 false s .unsupported 0 [])

/-- R206, R298. -/
def Obligations.AtomicsAreOneAccess : Prop :=
  ∀ (p : Port) (q : Req) (e : Env) (s : State), AtPeer s p q → s.hasFeature 0 = true → InBlock q.addr.toNat q.len →
    (∀ off old, q.len = 8 → q.addr.toNat % 8 = 0 → s.locate q.addr.toNat = .lagoon off → CleanSpan e s off 8 →
      old = bytesToNat (memReadN s.mem.lagoon off 8) →
      (Waits s p 4 0 q → ∃ u, AnswersFrom (.atomAdd p q e) p q 4 false s u .ok old [] ∧ u.regions = s.regions ∧
        LagoonHolds s u off (natToBytes 8 ((old + q.op0.toNat) % 2 ^ 64))) ∧
      (Waits s p 4 1 q → ∃ u, AnswersFrom (.atomSwap p q e) p q 4 false s u .ok old [] ∧ u.regions = s.regions ∧
        LagoonHolds s u off (natToBytes 8 q.op0.toNat)) ∧
      (Waits s p 4 2 q → ∃ u, AnswersFrom (.atomCas p q e) p q 4 false s u .ok old [] ∧ u.regions = s.regions ∧
        LagoonHolds s u off (natToBytes 8 (if old = q.op1.toNat then q.op0.toNat else old)))) ∧
    (∀ blk at_ (r : Region) (n : Fin 128), q.len = 8 → q.addr.toNat % 8 = 0 → s.locate q.addr.toNat = .control blk at_ →
      blk = 64 + r.1 → at_ = 0x2000 + 16 * n.1 → Waits s p 4 3 q →
      ∃ u, AnswersFrom (.atomDraw p q e) p q 4 false s u .ok
          (if ((s.regions.get r).counters.get n).value.toNat < ((s.regions.get r).counters.get n).limit.toNat then
            ((s.regions.get r).counters.get n).value.toNat else 2 ^ 64 - 1) [] ∧ u.mem = s.mem ∧
        ∀ (r' : Region) (n' : Fin 128), (u.regions.get r').counters.get n' =
          if r' = r ∧ n' = n ∧ ((s.regions.get r).counters.get n).value.toNat <
              ((s.regions.get r).counters.get n).limit.toNat then
            ⟨((s.regions.get r).counters.get n).value + 1, ((s.regions.get r).counters.get n).limit⟩
          else (s.regions.get r').counters.get n') ∧
    (∀ off, s.locate q.addr.toNat = .lagoon off → q.addr.toNat % 8 ≠ 0 ∨ q.len ≠ 8 →
      (Waits s p 4 0 q → ReadsFrom (.atomAdd p q e) p q 4 false s .error 0 []) ∧
      (Waits s p 4 1 q → ReadsFrom (.atomSwap p q e) p q 4 false s .error 0 []) ∧
      (Waits s p 4 2 q → ReadsFrom (.atomCas p q e) p q 4 false s .error 0 [])) ∧
    ∀ off, s.locate q.addr.toNat = .lagoon off → Waits s p 4 3 q →
      ReadsFrom (.atomDraw p q e) p q 4 false s .error 0 []

/-- R314, R315, R319, in every state in which the gate judges the request and its records stay on this chiplet. -/
def Obligations.TheGateFences : Prop :=
  ∀ (p : Port) (q : Req) (e : Env) (s : State), AtGate s p q → RecordsStay s 0 →
    (field q.addr.toNat 52 4 ≠ 0 ∨ (∀ k : Fin 16, (s.window p k.1).hit q.addr.toNat = false ∨
        (s.window p k.1).type = 0 ∨ (s.window p k.1).type = 2) →
      (Waits s p 1 0 q → GateRefuses (.rd p q e) p q 1 s false 0) ∧
      (∀ data, Waits s p 2 0 q → DataOf s p q data → GateRefuses (.wr p q e) p q 2 s false 0) ∧
      (Waits s p 3 0 q → GateRefuses (.wrs p q e) p q 3 s false 0) ∧
      (Waits s p 5 0 q → GateRefuses (.dbell p q e) p q 5 s false 0)) ∧
    ∀ k : Fin 16, field q.addr.toNat 52 4 = 0 → Lowest s p q.addr.toNat k →
      ((s.window p k.1).rd = false → Waits s p 1 0 q → GateRefuses (.rd p q e) p q 1 s true k.1) ∧
      ((s.window p k.1).wr = false →
        (∀ data, Waits s p 2 0 q → DataOf s p q data → GateRefuses (.wr p q e) p q 2 s true k.1) ∧
        (Waits s p 3 0 q → GateRefuses (.wrs p q e) p q 3 s true k.1)) ∧
      ((s.window p k.1).wr = false ∨ (s.window p k.1).type = 1 → Waits s p 5 0 q →
        GateRefuses (.dbell p q e) p q 5 s true k.1) ∧
      ∀ a off, (s.window p k.1).type = 1 →
        a = ((s.window p k.1).target.toNat + (q.addr.toNat - (s.window p k.1).base.toNat)) % 2 ^ 56 →
        s.locate a = .lagoon off → InBlock a q.len → CleanSpan e s off q.len →
        ((s.window p k.1).rd = true → Waits s p 1 0 q →
          ReadsFrom (.rd p q e) p q 1 true s .ok 0 (memReadN s.mem.lagoon off q.len)) ∧
        ((s.window p k.1).wr = true → ∀ data, Waits s p 2 0 q → DataOf s p q data →
          StoresAt (.wr p q e) p q 2 true s off (storedBytes q data))

/-- R248, R301, R302, R305, R310. -/
def Obligations.OwnRequestsHoldFreeNumbers : Prop :=
  ∀ (e : Env) (s : State),
    (∀ (way : Fin 2) (adr len : Nat) (data : List Byte) (p : Port) (x : Post), p.1 = way.1 →
      ((s.port p).state = 2 ∨ (s.port p).state = 3) → adr % 64 = 0 → adr % 256 + len ≤ 256 → len % 64 = 0 → 0 < len →
      (x = { port := p, op := 1, atop := 0, addr := adr, len := len, data := [], op0 := 0, op1 := 0, ostr := 0, oseq := 0,
             use_ := .own } →
        ∃ t, exec (.mrd way adr len) s = .next t ∧ t.mem = s.mem ∧ t.proto.writes = s.proto.writes ∧
          ((∃ tag, (∀ y ∈ s.proto.reads, y.id ≠ tag) ∧ t.proto.reads = s.proto.reads ++ [⟨tag, false, x⟩]) ∨
            t.proto.reads = s.proto.reads ∧ t.proto.waiting = s.proto.waiting ++ [x]) ∧
          (s.mayPost x = true → s.proto.reads.length < 16384 → t.proto.reads ≠ s.proto.reads)) ∧
      (len = data.length →
        x = { port := p, op := 2, atop := 0, addr := adr, len := len, data := data, op0 := 0, op1 := 0, ostr := 0,
              oseq := 0, use_ := .own } →
        ∃ t, exec (.mwr way adr data) s = .next t ∧ t.mem = s.mem ∧ t.proto.reads = s.proto.reads ∧
          ((∃ id, (∀ y ∈ s.proto.writes, y.id ≠ id) ∧ t.proto.writes = s.proto.writes ++ [⟨id, false, x⟩]) ∨
            t.proto.writes = s.proto.writes ∧ t.proto.waiting = s.proto.waiting ++ [x]) ∧
          (s.mayPost x = true → s.proto.writes.length < 4096 → t.proto.writes ≠ s.proto.writes))) ∧
    (∀ (way : Fin 2) (adr len : Nat), adr % 64 ≠ 0 ∨ len % 64 ≠ 0 ∨ 256 < adr % 256 + len →
      exec (.mrd way adr len) s = .next s) ∧
    (∀ (p : Port) (y : Outst) (o : Origin) (off n : Nat) (m : RxMsg), y ∈ s.proto.writes → y.x.port = p →
      (∀ z ∈ s.proto.writes, z.id = y.id → z = y) → y.x.use_ = .serve o off n →
      (RspWaits s p 0x21 y.id .ok m → ∃ t u : State, exec (.wcmp p y.id .ok e) s = .next t ∧
        t = (u.respond o y.x.op .ok 0 []).postWaiting.onPort p (fun x => { x with inbox := [] }) ∧ u.mem = s.mem ∧
        u.proto.writes = s.proto.writes.filter (·.id != y.id)) ∧
      (RspWaits s p 0x22 y.id .ok m → ∃ t u : State, exec (.acmp p y.id .ok e) s = .next t ∧
        t = (u.respond o y.x.op .ok m.result []).postWaiting.onPort p (fun x => { x with inbox := [] }) ∧
        u.mem = s.mem ∧ u.proto.writes = s.proto.writes.filter (·.id != y.id))) ∧
    (∀ y ∈ s.proto.reads, (∀ z ∈ s.proto.reads, z.id = y.id → z = y) → EndsHere s y.x →
      ∃ t, exec (.requestTimeout true y.id e) s = .next t ∧ t.proto.timeouts = s.proto.timeouts + 1 ∧
        Released y.id s.proto.reads s.proto.waiting t.proto.reads) ∧
    (∀ y ∈ s.proto.writes, (∀ z ∈ s.proto.writes, z.id = y.id → z = y) → EndsHere s y.x →
      ∃ t, exec (.requestTimeout false y.id e) s = .next t ∧ t.proto.timeouts = s.proto.timeouts + 1 ∧
        Released y.id s.proto.writes s.proto.waiting t.proto.writes) ∧
    ∀ (p : Port) (id : BitVec 14) (st : Status) (m : RxMsg), (∀ y ∈ s.proto.writes, y.id = id → y.x.port ≠ p) →
      (RspWaits s p 0x21 id st m → ∃ t, exec (.wcmp p id st e) s = .next t ∧ t.mem = s.mem ∧ t.proto = s.proto ∧
        t.regions = s.regions ∧ t.outbox = s.outbox ∧
        (t.life.counts.general.get 29).toNat = min (2 ^ 64 - 1) ((s.life.counts.general.get 29).toNat + 1)) ∧
      (RspWaits s p 0x22 id st m → ∃ t, exec (.acmp p id st e) s = .next t ∧ t.mem = s.mem ∧ t.proto = s.proto ∧
        t.regions = s.regions ∧ t.outbox = s.outbox ∧
        (t.life.counts.general.get 29).toNat = min (2 ^ 64 - 1) ((s.life.counts.general.get 29).toNat + 1))

/-- R249, for a response that is alone in its port's inbox. STATE 3 of a context is ERROR (R240); general count 29 is
the one of R435 for discarded responses. -/
def Obligations.ErrorResponsesEndContexts : Prop :=
  ∀ (p : Port) (tag : BitVec 14) (st : Status) (e : Env) (s : State) (m : RxMsg), RspWaits s p 0x20 tag st m →
    (∀ y (r : Region) id row off n skip c, s.proto.reads.find? (fun z => z.id == tag && z.x.port == p) = some y →
      st ≠ .ok → y.x.use_ = .ferry r id row off n skip → s.loaded r id = some c →
      ∃ t, exec (.rcmp p tag st e) s = .next t ∧
        Released tag s.proto.reads s.proto.waiting t.proto.reads ∧ t.loaded r id = none ∧
        ∀ no, c.number = some no → s.recordOf c = 0 → RecordsStay s r →
          memWf s.mem.ctx = true → (t.tableCtx no).state = 3) ∧
    ((∀ y ∈ s.proto.reads, y.id = tag → y.x.port ≠ p) → st ≠ .ok ∨ (s.takeReadData p tag).2.isSome = true →
      ∃ t, exec (.rcmp p tag st e) s = .next t ∧ t.mem = s.mem ∧ t.proto = s.proto ∧ t.regions = s.regions ∧
        t.clusters = s.clusters ∧ t.outbox = s.outbox ∧
        (t.life.counts.general.get 29).toNat = min (2 ^ 64 - 1) ((s.life.counts.general.get 29).toNat + 1))

/-- R303, R304, shown for writes to the lagoon by an RQ-family chiplet. -/
def Obligations.StreamsKeepTheirOrder : Prop :=
  ∀ (p : Port) (q : Req) (data : List Byte) (e : Env) (s : State) (y : Stream), isPeer p = true → (s.port p).state = 2 →
    s.proto.fence.getLsbD p.1 = false → s.proto.streams = [y] → y.port = p → y.src = q.src → y.ostr = q.ostr →
    q.ostr ≠ 0 → addrChip q.addr.toNat = s.pk.id.toNat →
    (Waits s p 2 0 q → DataOf s p q data → (q.oseq - y.next).toNat < 64 → q.oseq ≠ y.next ∨ y.busy = true →
      ∃ t, exec (.wr p q e) s = .next t ∧ t.mem = s.mem ∧ t.outbox = s.outbox ∧ t.regions = s.regions ∧
        t.proto.streams = [{ y with waiting := y.waiting ++ [⟨2, 0, q, data.take q.len, 0⟩] }]) ∧
    (∀ off, InBlock q.addr.toNat q.len → s.locate q.addr.toNat = .lagoon off → CleanSpan e s off q.len →
      (Waits s p 2 0 q → DataOf s p q data → q.oseq = y.next → y.busy = false →
        ∃ t, exec (.wr p q e) s = .next t ∧ LagoonHolds s t off (storedBytes q data) ∧
          t.proto.streams = [{ y with next := y.next + 1, busy := false }]) ∧
      (y.waiting = [⟨2, 0, q, data.take q.len, 0⟩] → 0 < q.len → y.busy = false → q.oseq = y.next →
        ∃ t, exec (.streamRequestRelease p q.ostr e) s = .next t ∧ LagoonHolds s t off (storedBytes q data) ∧
          t.proto.streams = [{ y with waiting := [], next := y.next + 1, busy := false }])) ∧
    (y.busy = true ∨ y.waiting = [] → exec (.streamRequestRelease p q.ostr e) s = .next s)

/-- R122, R293, R299, R309, R392: the payload flit of chain records, which waits at its port. Other payload flits wait
there for their message, and no flit that has not come is taken. -/
def Obligations.PayloadFlitsReachTheirPlace : Prop :=
  ∀ (p : Port) (proto : W64) (payload : List Byte) (f : TxFlit) (s : State), f = ⟨proto, payload⟩ →
    (f ∉ (s.port p).payWait ∨ protoClass proto ≠ 2 ∨ s.power.forced = true →
      exec (.payloadFlit p proto payload) s = .next s) ∧
    (f ∈ (s.port p).payWait → protoClass proto = 2 → s.power.forced = false →
      (s.proto.fence.getLsbD p.1 = true ∨ s.hasFeature 1 = false → RecordsStay s 0 →
        ∃ t, exec (.payloadFlit p proto payload) s = .next t ∧ t.clusters = s.clusters ∧ OnlyRecord s t 0 ∧
          (t.port p).payWait.length + 1 = (s.port p).payWait.length ∧
          (t.port p).freed.get 2 = (s.port p).freed.get 2 + 1) ∧
      (∀ k : Fin 64, s.proto.fence.getLsbD p.1 = false → s.hasFeature 1 = true →
        k.1 = 8 * field proto.toNat 37 3 + field proto.toNat 34 3 →
        (testBit proto.toNat 23 = false →
          ∃ t, exec (.payloadFlit p proto payload) s = .next t ∧ t.mem = s.mem ∧ t.regions = s.regions ∧
            (t.port p).freed.get 2 = (s.port p).freed.get 2 + 1 ∧ f ∈ (s.port p).payWait ∧
            (t.port p).payWait.length + 1 = (s.port p).payWait.length ∧
            (∀ j, j ≠ k → t.clusters.get j = s.clusters.get j) ∧
            (∀ n rest, (s.clusters.get k).chainIn.due = n :: rest → (s.clusters.get k).doneWith n = false →
              (t.clusters.get k).chainIn.rows = (s.clusters.get k).chainIn.rows ++
                [⟨n, field proto.toNat 27 7, field proto.toNat 24 3, chainRecs payload⟩]) ∧
            (s.power.clustersOn.getLsbD k.1 = false → k.1 ∈ t.power.waiting)) ∧
        (testBit proto.toNat 23 = true → testBit (sub payload 0 1) 2 = false →
          ∃ t, exec (.payloadFlit p proto payload) s = .next t ∧ t.mem = s.mem ∧ t.regions = s.regions ∧
            (∀ j, j ≠ k → t.clusters.get j = s.clusters.get j) ∧
            (t.clusters.get k).chainIn.due = (s.clusters.get k).chainIn.due.erase (sub payload 8 8) ∧
            ((s.clusters.get k).doneWith (sub payload 8 8) = false → (t.clusters.get k).chainIn.trailers =
              (s.clusters.get k).chainIn.trailers ++ [(sub payload 8 8, BitVec.ofNat 8 (sub payload 0 1))]))))

/-- R354, R355, R357, R368, R374, R379: what software's writes do to the rings. -/
def Obligations.DoorbellsAndRingRegisters : Prop :=
  ∀ (r : Region) (i : RingNo) (v : W32) (s : State),
    (∀ e : Env,
      ((s.ring r i).en = true → (v - (s.ring r i).tail).toNat + ((s.ring r i).tail - (s.ring r i).done).toNat ≤
          ringSize (s.ring r i).log2 →
        ∃ t, exec (.cmdRingDoorbell r i v e) s = .next t ∧ t.regions = (s.onRing r i fun q => { q with tail := v }).regions ∧
          t = { s with regions := t.regions, power := t.power } ∧ (s.clocks = true → t.regionOn r = true)) ∧
      ((s.ring r i).en = false ∨ ringSize (s.ring r i).log2 <
          (v - (s.ring r i).tail).toNat + ((s.ring r i).tail - (s.ring r i).done).toNat →
        ∃ t, exec (.cmdRingDoorbell r i v e) s = .next t ∧ t.clusters = s.clusters ∧
          t.ring r i = { s.ring r i with rejects := BitVec.ofNat 16 (min ((s.ring r i).rejects.toNat + 1) 65535) })) ∧
    (s.pk.running = true → ∃ t, exec (.cmdRingCfg r i v) s = .next t ∧ t.mem = s.mem ∧ t.clusters = s.clusters ∧
      (t.ring r i).en = v.getLsbD 31 ∧ (t.ring r i).opened = (s.ring r i).opened ∧ (t.ring r i).base = (s.ring r i).base ∧
      ((s.ring r i).en = true → t.ring r i = { s.ring r i with en := v.getLsbD 31 }) ∧
      ((s.ring r i).en = false → (t.ring r i).prio = v.extractLsb' 8 2 ∧ (t.ring r i).log2 = v.extractLsb' 0 5 ∧
        (v.getLsbD 31 = true → (t.ring r i).tail = 0 ∧ (t.ring r i).head = 0 ∧ (t.ring r i).done = 0))) ∧
    (s.pk.running = false → ∃ t, exec (.cmdRingCfg r i v) s = .next t ∧ t = { s with power := t.power }) ∧
    (∃ t, exec (.cmdFltCfg r v) s = .next t ∧ t.mem = s.mem ∧ (t.regions.get r).flt.en = v.getLsbD 31 ∧
      ((s.regions.get r).flt.en = true → (t.regions.get r).flt = { (s.regions.get r).flt with en := v.getLsbD 31 }) ∧
      ((s.regions.get r).flt.en = false → v.getLsbD 31 = true →
        (t.regions.get r).flt.wr = 0 ∧ (t.regions.get r).flt.rd = 0 ∧ (t.regions.get r).flt.log2 = v.extractLsb' 0 5)) ∧
    (∃ t, exec (.cmdFltRd r v) s = .next t ∧ t.mem = s.mem ∧ (t.regions.get r).rings = (s.regions.get r).rings ∧
      (t.regions.get r).flt = { (s.regions.get r).flt with rd :=
        if (v - (s.regions.get r).flt.rd).toNat ≤ ((s.regions.get r).flt.wr - (s.regions.get r).flt.rd).toNat then v
        else (s.regions.get r).flt.rd }) ∧
    ∀ x : W64, ∃ t, exec (.cmdMboxBell r x) s = .next t ∧ t = { s with regions := t.regions, power := t.power } ∧
      t.regions = (s.onRegion r fun y => { y with events := y.events ++ [x] }).regions ∧
      (s.clocks = true → t.regionOn r = true)

/-- R368, R369 for the DOORBELL record of R355 (source 0xA, cause 2 for a disabled ring). -/
def Obligations.FaultRecordsFillTheirRing : Prop :=
  ∀ (r : Region) (i : RingNo) (v : W32) (e : Env) (s : State) (off : Nat), (s.ring r i).en = false →
    s.locate ((s.regions.get r).flt.base.toNat + 64 * ((s.regions.get r).flt.wr.toNat %
      ringSize (s.regions.get r).flt.log2)) = .lagoon off → off % 64 = 0 →
    ((s.regions.get r).flt.en = true →
      ((s.regions.get r).flt.wr - (s.regions.get r).flt.rd).toNat ≠ ringSize (s.regions.get r).flt.log2 →
      s.poisoned (off / 64) = false →
      ∃ t, exec (.cmdRingDoorbell r i v e) s = .next t ∧
        LagoonHolds s t off (s.faultBytes (s.regions.get r).flt.wr.toNat
          { source := 0xA, cause := 2, region := r.1, tile := v.toNat, detail := i.1 }) ∧
        (t.regions.get r).flt = { (s.regions.get r).flt with wr := (s.regions.get r).flt.wr + 1 } ∧
        ((s.regions.get r).flt.notifyEn = true → testBit (s.regions.get r).flt.notifyAddr.toNat 55 = false →
          addrChip (s.regions.get r).flt.notifyAddr.toNat = s.pk.id.toNat →
          t.outbox = s.outbox ++ [.dbell (s.regions.get r).flt.notifyAddr.toNat
            (((s.regions.get r).flt.wr + 1).setWidth 64)]) ∧
        ((s.regions.get r).flt.notifyEn = false → t.outbox = s.outbox)) ∧
    ((s.regions.get r).flt.en = false ∨
        ((s.regions.get r).flt.wr - (s.regions.get r).flt.rd).toNat = ringSize (s.regions.get r).flt.log2 ∨
        s.poisoned (off / 64) = true →
      ∃ t, exec (.cmdRingDoorbell r i v e) s = .next t ∧ t.mem = s.mem ∧ t.outbox = s.outbox ∧
        (t.regions.get r).flt = { (s.regions.get r).flt with lost := (s.regions.get r).flt.lost + 1 })

/-- R356 for the choice; R354, R359, R362 for what issuing does. Rings of one PRIO are served in turn, whatever rings
of another PRIO do between (log 143). -/
def Obligations.RecordsIssueByPriority : Prop :=
  (∀ (x : RegionSt) (i : RingNo), x.nextRing = some i → (x.rings.get i).ready = true ∧
    ∀ (j last : RingNo), (x.rings.get j).ready = true → last = x.turn.get (fin 3 (x.rings.get i).prio.toNat) →
      (x.rings.get j).prio.toNat < (x.rings.get i).prio.toNat ∨
      (x.rings.get j).prio = (x.rings.get i).prio ∧ (i.1 + 7 - last.1) % 8 ≤ (j.1 + 7 - last.1) % 8) ∧
  (∀ x : RegionSt, x.nextRing = none → ∀ j : RingNo, (x.rings.get j).ready = false) ∧
  ∀ (r : Region) (e : Env) (s : State),
    (s.mayIssue r = false ∨ (s.regions.get r).nextRing = none → exec (.recordIssue r e) s = .next s) ∧
    ∀ (i : RingNo) (off : Nat) (bs : List Byte), s.mayIssue r = true → (s.regions.get r).nextRing = some i →
      s.locateN (ringAddr (s.ring r i) (s.ring r i).head) 64 = .lagoon off → CleanSpan e s off 64 →
      bs = memReadN s.mem.lagoon off 64 →
      (recBad bs = false → s.noChart bs = false →
        ∃ t, exec (.recordIssue r e) s = .next t ∧ t.mem = s.mem ∧ SameWork s t ∧
          (t.regions.get r).current = some ⟨⟨i, (s.ring r i).head, (s.ring r i).era,
            ringAddr (s.ring r i) (s.ring r i).head⟩, bs⟩ ∧
          (t.regions.get r).turn.get (fin 3 (s.ring r i).prio.toNat) = i ∧
          (t.ring r i).head = (s.ring r i).head + 1 ∧ (t.ring r i).tail = (s.ring r i).tail ∧
          (t.ring r i).done = (s.ring r i).done ∧ ∀ j : RingNo, j ≠ i → t.ring r j = s.ring r j) ∧
      (recBad bs = true ∨ s.noChart bs = true →
        ∀ at_, s.locateN (ringAddr (s.ring r i) (s.ring r i).head + 56) 8 = .lagoon at_ → CleanSpan e s at_ 8 →
        ∃ t w, exec (.recordIssue r e) s = .next t ∧ SameWork s t ∧ (t.regions.get r).current = none ∧
          (t.ring r i).head = (s.ring r i).head + 1 ∧ LagoonHolds s t at_ (natToBytes 8 w) ∧
          field w 63 1 = 1 ∧ field w 48 8 = codeBad)

/-- R354 for DONE; R359, R362, R363 for the records. -/
def Obligations.RecordsRetireInOrder : Prop :=
  (∀ (q : Ring) (f : RecRef),
    q.retire f = { q with opened := (q.retire f).opened, done := (q.retire f).done } ∧
    (q.retire f).done + BitVec.ofNat 32 ((q.retire f).opened.filter (·.era == q.era)).length =
      q.done + BitVec.ofNat 32 (q.opened.filter (·.era == q.era)).length ∧
    ∀ o, ((q.retire f).opened.filter (·.era == q.era)).head? = some o → o.retired = false) ∧
  ∀ (r : Region) (e : Env) (c : Current) (s : State),
    (Issued s r 0 c → ∃ t, exec (.nop r e) s = .next t ∧ SameWork s t ∧ Retires e s t r c.ref (statusWord codeOk 0 0 0) ∧
      ∀ q : Region, (t.regions.get q).counters = (s.regions.get q).counters) ∧
    (Issued s r 5 c → ∃ t, exec (.resetCounter r e) s = .next t ∧ SameWork s t ∧
      Retires e s t r c.ref (statusWord codeOk 0 0 0) ∧
      ∀ (q : Region) (n : Fin 128), (t.regions.get q).counters.get n =
        if q = r ∧ n.1 = recField c.bytes 64 7 then
          ⟨BitVec.ofNat 64 (recField c.bytes 128 64), BitVec.ofNat 64 (recField c.bytes 192 64)⟩
        else (s.regions.get q).counters.get n) ∧
    ∀ i : Instr, (i = .fence r ∧ Issued s r 6 c) ∨ (i = .writeFlag r ∧ Issued s r 7 c) ∨ (i = .signal r ∧ Issued s r 8 c) →
      ∃ t, exec i s = .next t ∧ SameWork s t ∧ t.mem = s.mem ∧ t.outbox = s.outbox ∧ (t.regions.get r).current = none ∧
        (t.ring r c.ref.ring) = { s.ring r c.ref.ring with hold := some (c.ref, c.bytes) } ∧
        (t.ring r c.ref.ring).ready = false ∧ ∀ j : RingNo, j ≠ c.ref.ring → t.ring r j = s.ring r j

/-- R363, R475. -/
def Obligations.HeldRecordsEndTheirWait : Prop :=
  ∀ (r : Region) (i : RingNo) (e : Env) (f : RecRef) (bs : List Byte) (s : State), (s.ring r i).hold = some (f, bs) →
    (s.holdOver r i f bs = false ∨ s.regionActs r = false → exec (.holdRelease r i e) s = .next s) ∧
    (s.holdOver r i f bs = true → s.regionActs r = true →
      (recOp bs = 6 →
        ∃ t, exec (.holdRelease r i e) s = .next t ∧ (t.ring r i).hold = none ∧ SameWork s t ∧
          Retires e (s.onRing r i fun q => { q with hold := none }) t r f (statusWord codeOk 0 0 0)) ∧
      (∀ off, recOp bs = 7 → s.locateN (recField bs 128 56) 8 = .lagoon off → CleanSpan e s off 8 →
        ∃ u t : State, exec (.holdRelease r i e) s = .next t ∧ (t.ring r i).hold = none ∧ SameWork s t ∧
          LagoonHolds s u off (natToBytes 8 (recField bs 192 64)) ∧
          (∀ j : RingNo, u.ring r j = (s.onRing r i fun q => { q with hold := none }).ring r j) ∧
          u = { s with mem := u.mem, regions := u.regions, power := u.power } ∧
          Retires e u t r f (statusWord codeOk 0 0 0)) ∧
      (∀ y d crcs rest, recOp bs = 8 → s.locate (recField bs 128 56) = .away → s.leave (recField bs 128 56) .write = .way y →
        e.ext = ⟨.ok, d, crcs⟩ :: rest →
        ∃ t x, exec (.holdRelease r i e) s = .next t ∧ (t.ring r i).hold = none ∧ SameWork s t ∧
          Out.request x ∈ t.outbox ∧ x.op = 5 ∧ x.port = y.port ∧ x.addr = y.addr ∧ x.len = 8 ∧
          x.op0 = BitVec.ofNat 64 (recField bs 192 64) ∧
          Retires e (s.onRing r i fun q => { q with hold := none }) t r f (statusWord codeOk 0 0 0)))

/-- R185, R361, R364, R370: BIND with RELEASE 0 and 1, by this chiplet's records, and for the positions here of an
instance that another chiplet owns (log 142). -/
def Obligations.BindAndRelease : Prop :=
  ∀ (r : Region) (e : Env) (s : State),
    (∀ (c : Current) (k : SlotNo), Issued s r 1 c → k = recInst c.bytes →
      (recField c.bytes 16 1 = 0 → ∀ d, imgChart s.site.image (recField c.bytes 64 12) = some d →
        ((s.inst r k).st ≠ .idle → NotNow (.bind r none e) e s r c) ∧
        (∀ kept off, (s.inst r k).st = .idle → e.away = none →
          (∀ p ∈ d.positions, p.chiplet = s.pk.id.toNat ∧ p.cluster < (s.site.regions.get (fin 7 p.region)).clusters.toNat) →
          placement s d [] = some kept →
          (s.conflicts (r, k) d kept ≠ [] → recField c.bytes 17 1 = 0 → NotNow (.bind r none e) e s r c) ∧
          (s.conflicts (r, k) d kept = [] → s.locateN (recField c.bytes 128 56) 576 = .lagoon off →
            CleanSpan e s off 576 →
            ∃ t, exec (.bind r none e) s = .next t ∧ (t.inst r k).st = .bound ∧ (t.inst r k).chart = some d ∧
              (t.inst r k).args = memReadN s.mem.lagoon off 576 ∧
              (t.inst r k).recBase = BitVec.ofNat 56 (recField c.bytes 192 56) ∧
              (t.inst r k).statAddr = BitVec.ofNat 56 (recField c.bytes 256 56) ∧
              (∀ q n, (q, n) ≠ (r, k) → t.inst q n = s.inst q n) ∧
              (∀ x ∈ s.chartClusters d kept, (t.clusters.get x.1).inst = some (r, k) ∧
                (t.clusters.get x.1).epi = BitVec.ofNat 32 d.epi) ∧
              (∀ q, q ∉ (s.chartClusters d kept).map (·.1) → t.clusters.get q = s.clusters.get q) ∧
              (recField c.bytes 256 56 = 0 → Retires e s t r c.ref (statusWord codeOk 1 0 0)) ∧
              (∀ so n, recField c.bytes 256 56 ≠ 0 → n = (instRecord (t.inst r k)).length →
                s.locateN (recField c.bytes 256 56) n = .lagoon so → CleanSpan e s so n →
                ∃ u : State, LagoonHolds s u so (instRecord (t.inst r k)) ∧ u.pk = s.pk ∧ u.proto = s.proto ∧
                  (∀ j : RingNo, u.ring r j = s.ring r j) ∧ Retires e u t r c.ref (statusWord codeOk 1 0 0))))) ∧
      (recField c.bytes 16 1 = 1 →
        ((s.inst r k).st = .bound ∨ (s.inst r k).st = .stopped ∨ (s.inst r k).st = .faulted →
          ∃ t, exec (.bindRelease r none e) s = .next t ∧ t.inst r k = { Inst.reset with ring := (s.inst r k).ring } ∧
            (∀ q, (t.clusters.get q).inst ≠ some (r, k)) ∧
            (∀ q, (s.clusters.get q).inst ≠ some (r, k) → t.clusters.get q = s.clusters.get q) ∧
            (∀ q n, (q, n) ≠ (r, k) → t.inst q n = s.inst q n) ∧ Retires e s t r c.ref (statusWord codeOk 0 0 0)) ∧
        ((s.inst r k).st = .idle ∨ (s.inst r k).st = .running ∨ (s.inst r k).st = .draining →
          NotNow (.bindRelease r none e) e s r c))) ∧
    ∀ (f : Far) (k : SlotNo), k = s.farSlot f → ownSlot k = false →
      (∀ d, imgChart s.site.image f.chartNo.toNat = some d → (s.inst r k).st = .idle →
        (s.conflicts (r, k) d f.groups = [] →
          ∃ t, exec (.bind r (some f) e) s = .next t ∧ (t.inst r k).st = .bound ∧ (t.inst r k).chart = some d ∧
            (t.inst r k).args = f.args ∧ t.mem = s.mem ∧ t.outbox = s.outbox ∧
            ∀ x ∈ s.chartClusters d (f.groups.filter (s.groupHere d)), (t.clusters.get x.1).inst = some (r, k)) ∧
        (s.conflicts (r, k) d f.groups ≠ [] → exec (.bind r (some f) e) s = .next s)) ∧
      ((s.inst r k).st = .bound ∨ (s.inst r k).st = .stopped ∨ (s.inst r k).st = .faulted →
        ∃ t, exec (.bindRelease r (some f) e) s = .next t ∧ t.inst r k = Inst.reset ∧ t.mem = s.mem ∧
          ∀ q, (t.clusters.get q).inst ≠ some (r, k))

/-- R195, R206, R361, R365, R369, R372, by records, and for the positions here of an instance that another chiplet owns
(log 142). -/
def Obligations.RunsStartStopAndResume : Prop :=
  ∀ (r : Region) (e : Env) (s : State),
    (∀ (c : Current) (k : SlotNo), k = recInst c.bytes →
      (Issued s r 2 c →
        ((s.inst r k).st = .bound ∨ (s.inst r k).st = .stopped ∨ (s.inst r k).st = .faulted → ∀ d,
          (s.inst r k).chart = some d →
          ((s.inst r k).reason ≠ 6 → (s.inst r k).displaced = false ∨
              s.conflicts (r, k) d ((s.inst r k).groups.map (·.g)) = [] ∧ e.away = none →
            (∀ b ∈ d.bounds, b.src ≠ 2) →
            (tileCount d (plainBounds (s.inst r k).args d.bounds 0) < 2 ^ 63 →
              slotFault d (plainBounds (s.inst r k).args d.bounds 0) = none →
              ∃ t, exec (.start r none e) s = .next t ∧ (t.inst r k).st = .running ∧ (t.inst r k).startRec = some c.ref ∧
                (t.inst r k).ring = c.ref.ring ∧ (t.inst r k).displaced = false ∧
                (t.inst r k).bounds = plainBounds (s.inst r k).args d.bounds 0 ∧ (t.inst r k).tiles = 0 ∧
                (t.inst r k).groups.map (·.g) = (s.inst r k).groups.map (·.g) ∧
                (∀ g ∈ (t.inst r k).groups, g.done = false ∧ g.redo = [] ∧ g.lost = []) ∧
                (∀ x, d.counters = [x] → x.chiplet = s.pk.id.toNat →
                  (t.regions.get (fin 7 (x.counter / 128))).counters.get (fin 127 (x.counter % 128)) =
                    ⟨BitVec.ofNat 64 (ctrRange d (t.inst r k).bounds x).1,
                      BitVec.ofNat 64 (ctrRange d (t.inst r k).bounds x).2⟩) ∧
                (∀ j : RingNo, t.ring r j = s.ring r j) ∧ t.mem = s.mem) ∧
            (2 ^ 63 ≤ tileCount d (plainBounds (s.inst r k).args d.bounds 0) →
              ∃ t, exec (.start r none e) s = .next t ∧ (t.inst r k).st = .faulted ∧ (t.inst r k).reason = 5)) ∧
          ((s.inst r k).reason = 6 ∨ (s.inst r k).displaced = true ∧
              (s.conflicts (r, k) d ((s.inst r k).groups.map (·.g)) ≠ [] ∨ e.away ≠ none) →
            NotNow (.start r none e) e s r c)) ∧
        ((s.inst r k).st = .idle ∨ (s.inst r k).st = .running ∨ (s.inst r k).st = .draining →
          NotNow (.start r none e) e s r c)) ∧
      (Issued s r 3 c →
        ((s.inst r k).st = .running ∨ (s.inst r k).st = .draining ∧ (s.inst r k).stopPending = false →
          ∃ t, exec (.stop r none e) s = .next t ∧ (t.inst r k).st = .draining ∧ (t.inst r k).stopPending = true ∧
            ((s.inst r k).stopRec = none → (t.inst r k).stopRec = some c.ref) ∧ t.mem = s.mem ∧ t.clusters = s.clusters ∧
            ∀ j : RingNo, t.ring r j = s.ring r j) ∧
        ((s.inst r k).st ≠ .running → (s.inst r k).st ≠ .draining ∨ (s.inst r k).stopPending = true →
          NotNow (.stop r none e) e s r c)) ∧
      (Issued s r 4 c →
        ((s.inst r k).st = .stopped ∨ (s.inst r k).st = .faulted → ∀ d, (s.inst r k).chart = some d →
          ((s.inst r k).reason ≠ 6 → (s.inst r k).displaced = false ∨
              s.conflicts (r, k) d ((s.inst r k).groups.map (·.g)) = [] ∧ e.away = none →
            ∃ t, exec (.resume r none e) s = .next t ∧ (t.inst r k).st = .running ∧ (t.inst r k).startRec = some c.ref ∧
              (t.inst r k).displaced = false ∧ (t.inst r k).bounds = (s.inst r k).bounds ∧
              (t.inst r k).groups.map (·.redo) = (s.inst r k).groups.map (fun g =>
                if recField c.bytes 16 1 = 1 ∨ s.leads d g.g = false then [] else g.lost) ∧
              (recField c.bytes 16 1 = 0 → ∀ q, (t.regions.get q).counters = (s.regions.get q).counters) ∧
              (∀ x a b, recField c.bytes 16 1 = 1 → d.counters = [x] → x.chiplet = s.pk.id.toNat →
                (s.inst r k).ranges = [(a, b)] →
                (t.regions.get (fin 7 (x.counter / 128))).counters.get (fin 127 (x.counter % 128)) =
                  ⟨BitVec.ofNat 64 (min (max (recField c.bytes 64 64) a) b), BitVec.ofNat 64 b⟩) ∧
              t.mem = s.mem ∧ ∀ j : RingNo, t.ring r j = s.ring r j) ∧
          ((s.inst r k).reason = 6 ∨ (s.inst r k).displaced = true ∧
              (s.conflicts (r, k) d ((s.inst r k).groups.map (·.g)) ≠ [] ∨ e.away ≠ none) →
            NotNow (.resume r none e) e s r c)) ∧
        ((s.inst r k).st ≠ .stopped → (s.inst r k).st ≠ .faulted → NotNow (.resume r none e) e s r c))) ∧
    ∀ (f : Far) (k : SlotNo) (d : Chart), k = s.farSlot f → ownSlot k = false → (s.inst r k).chart = some d →
      (s.inst r k).displaced = false →
      ((s.inst r k).st = .bound ∨ (s.inst r k).st = .stopped ∨ (s.inst r k).st = .faulted →
        ∃ t, exec (.start r (some f) e) s = .next t ∧ (t.inst r k).st = .running ∧ (t.inst r k).bounds = f.bounds ∧
          t.mem = s.mem ∧
          ∀ n v l, f.counters = [(n, v, l)] → (t.regions.get (fin 7 (n / 128))).counters.get (fin 127 (n % 128)) =
            ⟨BitVec.ofNat 64 v, BitVec.ofNat 64 l⟩) ∧
      ((s.inst r k).st = .running ∨ (s.inst r k).st = .draining →
        ∃ t, exec (.stop r (some f) e) s = .next t ∧ (t.inst r k).st = .draining ∧ (t.inst r k).stopPending = true ∧
          t.mem = s.mem ∧ t.clusters = s.clusters) ∧
      ((s.inst r k).st = .stopped ∨ (s.inst r k).st = .faulted →
        ∃ t, exec (.resume r (some f) e) s = .next t ∧ (t.inst r k).st = .running ∧
          (t.inst r k).bounds = (s.inst r k).bounds ∧ t.mem = s.mem)
/-- R379: each slot starts at most eight waiting clusters, oldest first; R392: none in forced Slack. -/
def Obligations.ClusterSlotsStartEight : Prop :=
  ∀ s : State,
    (s.clocks = true → s.power.forced = false → (∀ k ∈ s.power.waiting, k < 64) →
      ∃ t, exec .clusterStartSlot s = .next t ∧ ClocksOnly s t ∧ t.power.waiting = s.power.waiting.drop 8 ∧
        (∀ k : Fin 64, t.power.clustersOn.getLsbD k.1 = true ↔
          s.power.clustersOn.getLsbD k.1 = true ∨ k.1 ∈ s.power.waiting.take 8) ∧
        ∀ r : Region, t.regionOn r = true ↔ s.regionOn r = true ∨ ∃ k ∈ s.power.waiting.take 8, k / 8 = r.1) ∧
    (s.clocks = false ∨ s.power.forced = true → exec .clusterStartSlot s = .next s)

/-- R377, R378, R379: one domain's clock stops or starts, and the chiplet is in Flood exactly while a region is
clocked (R375). -/
def Obligations.IdleDomainsStop : Prop :=
  ∀ (r : Region) (c : Cluster) (s : State),
    (s.clusterIdle (clIdx r c) = true → s.power.haltedClusters.getLsbD (clIdx r c).1 = false →
      ∃ t, exec (.clusterIdleTimeout r c) s = .next t ∧ ClocksOnly s t ∧ t.power.st = s.power.st ∧
        t.power.regionsOn = s.power.regionsOn ∧ ∀ k : Fin 64, t.power.clustersOn.getLsbD k.1 =
          (s.power.clustersOn.getLsbD k.1 && decide (k ≠ clIdx r c))) ∧
    (s.power.haltedClusters.getLsbD (clIdx r c).1 = true → exec (.clusterIdleTimeout r c) s = .next s) ∧
    (s.power.runs = true → s.regionIdle r = true →
      ∃ t, exec (.regionSlackTimeout r) s = .next t ∧ ClocksOnly s t ∧ t.power.clustersOn = s.power.clustersOn ∧
        (∀ q : Region, t.regionOn q = (s.regionOn q && decide (q ≠ r))) ∧
        t.power.st = (if t.power.regionsOn = 0 then .slack else .flood)) ∧
    (s.clocks = true → s.power.haltedRegions.getLsbD r.1 = false →
      ∃ t, exec (.regionWake r) s = .next t ∧ ClocksOnly s t ∧ t.power.clustersOn = s.power.clustersOn ∧
        (∀ q : Region, t.regionOn q = (s.regionOn q || decide (q = r))) ∧ t.power.st = .flood)

/-- R381, R382 step 2: the answer to PW_PKG.EBB_REQ. The order of the codes is the model's (log 24). -/
def Obligations.EbbRequestAnswered : Prop :=
  ∀ (e : Env) (s : State),
    (s.pk.lead = false → exec (.ebbReq e) s = .next s) ∧
    (s.pk.lead = true → s.power.st ≠ .ebb → s.power.st ≠ .off →
      (s.pk.running = false → EbbRefused e s 1 s.pk.id 0) ∧
      (∀ r : Region, s.pk.running = true → s.regionBusy r = true → (∀ q : Region, q < r → s.regionBusy q = false) →
        EbbRefused e s 2 s.pk.id (BitVec.ofNat 8 r.1)) ∧
      (s.pk.running = true → (∀ r : Region, s.regionBusy r = false) → s.portsBusy = true ∨ s.life.busy = true →
        EbbRefused e s 2 s.pk.id 0) ∧
      (s.pk.running = true → (∀ r : Region, s.regionBusy r = false) → s.portsBusy = false → s.life.busy = false →
        (∀ p : Port, (s.port p).state = 2 → (s.proto.pfeat.get p).getLsbD (lpBit p) = false →
          (∀ q : Port, q < p → (s.port q).state ≠ 2) → EbbRefused e s 3 s.pk.id (BitVec.ofNat 8 p.1)) ∧
        ((∀ p : Port, (s.port p).state = 2 → (s.proto.pfeat.get p).getLsbD (lpBit p) = true) →
          s.power.haltedRegions = 0 → s.power.haltedClusters = 0 → s.power.st ≠ .enterEbb → s.power.st ≠ .waking →
          (∀ o rest, e.peers = o :: rest → EbbRefused e s o.2.1 o.1 o.2.2) ∧
          (e.peers = [] →
            ∃ t, exec (.ebbReq e) s = .next t ∧ t.power.st = .enterEbb ∧ t.power.ebbStep = 2 ∧ t.power.regionsOn = 0 ∧
              t.power.clustersOn = 0 ∧ t.outbox = s.outbox ++ [.toPkg .enterEbb] ∧ t.mem = s.mem ∧
              t.regions = s.regions ∧ t.clusters = s.clusters ∧ t.link = s.link ∧ t.proto = s.proto))))

/-- R379, R382, R383, R385, R387, R431: the steps of entry and wake on one chiplet. -/
def Obligations.EbbEntryAndWake : Prop :=
  ∀ s : State,
    (s.power.st = .enterEbb →
      (s.power.ebbStep = 2 →
        ∃ t, exec .ebbEntryProgress s = .next t ∧ t.power.ebbStep = 3 ∧ t.mem = { s.mem with shoal := [] } ∧
          t.link = s.link ∧ t.proto = s.proto ∧ (∀ k : Fin 64, (t.clusters.get k).queue = [] ∧
            (t.clusters.get k).consts = [0, 0, 0, 0] ∧ (t.clusters.get k).mode = (s.clusters.get k).mode) ∧
          ∀ r : Region, (t.regions.get r).rings = (s.regions.get r).rings ∧
            (t.regions.get r).counters = (s.regions.get r).counters ∧ (t.regions.get r).insts = (s.regions.get r).insts) ∧
      (s.power.ebbStep = 4 → s.portsDown s.lowerPorts = true →
        (s.pk.lead = true → s.power.wakePending = 0 → s.power.wakeDue = false →
          ∃ t, exec .ebbEntryProgress s = .next t ∧ t.power.st = .ebb ∧ t.pk.pllLock = false ∧ t.mem = s.mem ∧
            t.link = s.link ∧ t.regions = s.regions) ∧
        (s.pk.lead = true → s.power.wakePending ≠ 0 ∨ s.power.wakeDue = true →
          ∃ t, exec .ebbEntryProgress s = .next t ∧ t.power.st = .waking ∧ t.power.wakeStep = 1 ∧
            t.ao.cause = s.ao.cause ||| s.power.wakePending ∧ t.mem = s.mem ∧ t.link = s.link) ∧
        (s.pk.lead = false →
          ∃ t, exec .ebbEntryProgress s = .next t ∧ t.power.st = .enterEbb ∧ t.power.ebbStep = 5 ∧ t.mem = s.mem ∧
            ∀ b : BundleNo, (t.bundle b).state = (s.bundle b).state))) ∧
    (s.power.runs = true → s.pk.lead = false → s.pk.running = true →
      ∃ t, exec .ebbEntryProgress s = .next t ∧ t.power.st = .enterEbb ∧ t.power.ebbStep = 2 ∧ t.power.regionsOn = 0 ∧
        t.power.clustersOn = 0 ∧ t = { s with power := t.power }) ∧
    (s.power.st = .ebb → s.pk.lead = false → ∀ ready : Bool,
      ∃ t, exec (.wakeProgress ready) s = .next t ∧ t.power.st = .waking ∧ t.power.wakeStep = 2 ∧ t.pk.pllLock = true ∧
        (s.vault.zeroDue = false → t.mem = s.mem) ∧ (s.vault.zeroDue = true → t.mem.lagoon = [] ∧ t.vault.zeroDue = false)) ∧
    (s.power.st = .waking → ∀ ready : Bool,
      (s.power.wakeStep = 1 → s.vault.zeroDue = false →
        ∃ t, exec (.wakeProgress ready) s = .next t ∧ t.power.wakeStep = 2 ∧ t.pk.pllLock = true ∧ t.mem = s.mem) ∧
      (s.power.wakeStep = 2 → s.portsBack = true →
        ∃ t, exec (.wakeProgress ready) s = .next t ∧ t.power.wakeStep = 4 ∧ t.mem = s.mem) ∧
      (s.power.wakeStep = 5 →
        ∃ t, exec (.wakeProgress ready) s = .next t ∧ t.power.wakeStep = 6 ∧ t.mem = { s.mem with shoal := [] }) ∧
      (s.power.wakeStep = 7 → ready = true →
        ∃ t, exec (.wakeProgress ready) s = .next t ∧ t.power.regionsOn = s.power.regionsOn ||| s.power.regionsDue ∧
          t.power.st = (if t.power.regionsOn = 0 then .slack else .flood) ∧ t.power.ebbResult = 6 ∧
          t.power.wakes.toNat = min 255 (s.power.wakes.toNat + 1) ∧ t.mem = s.mem ∧ t.regions = s.regions ∧
          t.clusters = s.clusters ∧ t.ao = s.ao))

/-- R384, R387: wake events and their causes. -/
def Obligations.WakeEventsReachTheLead : Prop :=
  ∀ s : State,
    (s.pk.lead = true → s.power.st = .ebb →
      (∃ t, exec .aoCmdWake s = .next t ∧ t.power.st = .waking ∧ t.power.wakeStep = 1 ∧ t.ao.cause = s.ao.cause ||| 1 ∧
        t.mem = s.mem ∧ t.regions = s.regions ∧ t.link = s.link) ∧
      (s.ao.timerEn = true →
        ∃ t, exec .wakeTimerExpiry s = .next t ∧ t.power.st = .waking ∧ t.ao.cause = s.ao.cause ||| 2) ∧
      (∀ (p : Port) (b : BundleNo), b ∈ portBundles p → (s.bundle b).state = 4 → isMemory p = false →
        ∃ t, exec (.portWakeRequest p) s = .next t ∧ t.power.st = .waking ∧
          t.ao.cause = s.ao.cause ||| (if isPeer p then 8 else 4))) ∧
    (s.pk.lead = true → s.power.st = .enterEbb →
      ∃ t, exec .aoCmdWake s = .next t ∧ t = { s with power := { s.power with wakePending := s.power.wakePending ||| 1 } }) ∧
    (s.pk.lead = false ∨ s.power.st = .flood ∨ s.power.st = .slack → exec .aoCmdWake s = .next s) ∧
    ∀ p : Port, isMemory p = true → exec (.portWakeRequest p) s = .next s

/-- R389, R390, R392, R393 in eighths of a degree: 95.5 is 764, 95.0 is 760, 0.5 is 4, 94.5 is 756, 110 is 880, 107
is 856, 115 is 920, 112 is 896. -/
def Obligations.SamplesSetTheThrottleLevel : Prop :=
  ∀ (readings : List (Option Int)) (droops : List Nat) (s : State), s.power.st ≠ .off → s.pk.phase ≠ .inReset →
    (∀ (b : Int) (target : Nat), BaseReads readings b →
      target = (if b < 764 then 0 else min 8 ((b - 760) / 4).toNat) →
      ∃ t, exec (.thermalSample readings droops) s = .next t ∧
        t.power.level.toNat = (if s.power.level.toNat < target then target
          else if target < s.power.level.toNat ∧ b < 756 + 4 * (s.power.level.toNat : Int) then s.power.level.toNat - 1
          else s.power.level.toNat) ∧
        t.power.forced = (decide (880 ≤ b) || s.power.forced && decide (856 ≤ b)) ∧
        t.power.therm = (decide (920 ≤ b) || s.power.therm && decide (896 ≤ b)) ∧ t.power.sensorFail = false ∧
        t.power.forcedCnt = (if t.power.forced && !s.power.forced then s.power.forcedCnt + 1 else s.power.forcedCnt) ∧
        t.outbox = (if t.power.therm = s.power.therm then s.outbox else s.outbox ++ [.thermN t.power.therm]) ∧
        t.ao.tb = BitVec.ofInt 12 b ∧ t.mem = s.mem ∧ t.regions = s.regions ∧ t.clusters = s.clusters ∧
        t.link = s.link ∧ t.proto = s.proto) ∧
    ((∀ i, i < 32 → readings.getD i none = none) →
      ∃ t, exec (.thermalSample readings droops) s = .next t ∧ t.power.level = 8 ∧ t.power.forced = true ∧
        t.power.therm = true ∧ t.power.sensorFail = true ∧ t.mem = s.mem ∧ t.regions = s.regions ∧ t.link = s.link)


/-- R418 to R422: what applies LOCK, and what ERASE. ERASE empties the seed latch (R404). -/
def Obligations.AlarmsLock : Prop :=
  ∀ (e : Env) (s : State), s.power.st ≠ .off →
    (∀ src : Fin 8, src ≠ 6 →
      ∃ t, exec (.alarmSourceDetect src e) s = .next t ∧ LockedFrom s t (BitVec.ofNat 8 (2 ^ src.1)) ∧
        t.vault.driving = true ∧ (s.vault.driving = false → Out.alarmN true ∈ t.outbox) ∧
        (src.1 < 6 → s.pk.step.toNat ≥ 16 → s.sec.eraseMask.getLsbD src.1 = true →
          t.sec.erased = true ∧ t.vault.latch = none) ∧
        (src.1 = 7 ∨ s.pk.step.toNat < 16 ∨ s.sec.eraseMask.getLsbD src.1 = false →
          t.sec.erased = s.sec.erased ∧ t.vault.latch = s.vault.latch)) ∧
    (s.vault.driving = false →
      ∃ t, exec (.peerAlarm e) s = .next t ∧ LockedFrom s t 64 ∧ t.vault.driving = false ∧ t.sec.erased = s.sec.erased ∧
        t.vault.latch = s.vault.latch) ∧
    (s.vault.driving = true → exec (.peerAlarm e) s = .next s) ∧
    (s.pk.step.toNat ≥ 16 → s.sec.eraseMask.getLsbD 6 = true →
      ∃ t, exec (.eraseSignal e) s = .next t ∧ LockedFrom s t 64 ∧ t.sec.erased = true ∧ t.vault.latch = none) ∧
    (s.sec.eraseMask.getLsbD 6 = false → exec (.eraseSignal e) s = .next s)

/-- R418, R420 steps 4 and 5, R421, R427. -/
def Obligations.LockEndsWithZeros : Prop :=
  ∀ s : State,
    (∀ e : Env, s.vault.locking = true → s.vault.zeroed = false → s.clocks = true →
      ∃ t, exec (.lockZeroingDone e) s = .next t ∧
        t.mem = { s.mem with lagoon := [], crcBad := [], poison := [], shoal := [] } ∧ t.vault.zeroed = true ∧
        t.sec.alarm = s.sec.alarm ∧ t.regions = s.regions ∧ t.clusters = s.clusters ∧
        (s.vault.debug3 = false → t.sec.level = s.sec.level ∧ t.power = s.power) ∧
        (s.vault.debug3 = true → t.sec.level = 3 ∧ t.power.haltedRegions = BitVec.allOnes 8 ∧
          t.power.haltedClusters = BitVec.allOnes 64)) ∧
    (s.vault.driving = true → s.vault.zeroed = true →
      ∃ t, exec .alarmNRelease s = .next t ∧ t.vault.driving = false ∧ t.vault.locking = false ∧ t.sec = s.sec ∧
        t.outbox = s.outbox ++ [.alarmN false] ∧ t.mem = s.mem) ∧
    (s.vault.zeroed = false → exec .alarmNRelease s = .next s) ∧
    ∀ serial : W64, (s.pk.strap = 1 ∨ s.pk.strap = 2) → s.life.busy = false →
      ∃ t, exec (.helperOverwrite serial) s = .next t ∧ t.outbox = s.outbox ++ [.erased serial] ∧
        serial ∉ t.vault.overwrites ∧ t.sec = s.sec ∧ t.mem = s.mem

/-- R425 to R427. The random numbers are the model's free values (log 5), the order of the checks its own (log 26). -/
def Obligations.TokensGrantLevels : Prop :=
  ∀ (e : Env) (s : State), s.prodomRuns = true →
    (∃ t, exec .newNonce s = .next t ∧ t.sec.nonce = Config.drbg s.vault.drbg ∧ t.vault.nonceValid = true ∧
      t.sec.level = s.sec.level ∧ t.mem = s.mem ∧ t.power = s.power) ∧
    (s.alarmed = true ∨ s.sec.keysLive = false → TokenRefused s 7) ∧
    (∀ code, s.tokenResult (memReadN s.sec.token 0 6052) = code → code ≠ 2 → TokenRefused s code) ∧
    (∀ tok, tok = memReadN s.sec.token 0 6052 → s.tokenResult tok = 2 →
      (sub tok 4 1 < 3 →
        ∃ t, exec (.tokenGo e) s = .next t ∧ t.sec.level = BitVec.ofNat 2 (sub tok 4 1) ∧ t.sec.dbgResult = 2 ∧
          t.vault.nonceValid = false ∧ t.sec.alarm = s.sec.alarm ∧ t.outbox = s.outbox ++ [.toPkg (.token tok)] ∧
          t.mem = s.mem) ∧
      (sub tok 4 1 = 3 → s.power.st ≠ .off →
        ∃ t, exec (.tokenGo e) s = .next t ∧ t.sec.level = 0 ∧ t.sec.alarm.getLsbD 7 = true ∧ t.vault.debug3 = true ∧
          t.sec.dbgResult = 2)) ∧
    (∀ tok : List Byte, s.alarmed = false → s.sec.keysLive = true → tokenFormat tok = true →
      s.tokenSigned tok = true → s.tokenNames tok = true → s.sec.level.toNat < sub tok 4 1 → sub tok 4 1 < 3 →
      ∃ t, exec (.tokenForward tok e) s = .next t ∧ t.sec.level = BitVec.ofNat 2 (sub tok 4 1) ∧ t.mem = s.mem ∧
        t.outbox = s.outbox) ∧
    (∀ tok : List Byte, s.tokenSigned tok = false ∨ s.tokenNames tok = false ∨ s.alarmed = true →
      exec (.tokenForward tok e) s = .next s) ∧
    ∀ d : BitVec 2,
      (s.sec.level ≠ 3 → d.toNat < s.sec.level.toNat →
        ∃ t, exec (.lowerEn d) s = .next t ∧ t.sec = { s.sec with level := d } ∧ t.mem = s.mem ∧
          (s.sec.level = 2 → t.power.haltedRegions = 0 ∧ t.power.haltedClusters = 0) ∧
          (s.sec.level ≠ 2 → t.power = s.power)) ∧
      (s.sec.level.toNat ≤ d.toNat → exec (.lowerEn d) s = .next s)

/-- R411, R412, R414, R415: SEC_ATT_CTRL.GO. -/
def Obligations.AttestationAnswers : Prop :=
  ∀ (e : Env) (s : State), s.prodomRuns = true →
    (s.alarmed = true ∨ s.sec.att ≠ 1 → exec (.attGo e) s = .next { s with sec := { s.sec with attResult := 3 } }) ∧
    (s.alarmed = false → s.sec.att = 1 →
      (s.attDstOk = false → exec (.attGo e) s = .next { s with sec := { s.sec with attResult := 4 } }) ∧
      (s.attDstOk = true → s.vault.nextTree = false → s.sec.leaf.toNat / 32768 ≠ s.vault.tree →
        ∃ t, exec (.attGo e) s = .next t ∧ t.sec = { s.sec with attResult := 1 } ∧ t.vault.attWait = true ∧
          t.mem = s.mem) ∧
      ∀ off, s.locate s.sec.attDst.toNat = .lagoon off → off + 5504 ≤ 0x40000000 →
        s.sec.leaf.toNat / 32768 = s.vault.tree → s.sec.leaf.toNat < 2 ^ 25 →
        s.vault.block = some (BitVec.ofNat 32 (s.sec.leaf.toNat / 256)) → CleanSpan e s off 5492 →
        ∃ t, exec (.attGo e) s = .next t ∧ t.sec.attResult = 2 ∧ t.sec.leaf.toNat = s.sec.leaf.toNat + 1 ∧
          t.sec.att = (if s.sec.leaf.toNat + 1 = 2 ^ 25 then 2 else 1) ∧
          LagoonHolds s t off (s.reportHead s.sec.leaf.toNat ++
            sign (s.vault.seed.getD 0) s.sec.leaf.toNat (s.reportHead s.sec.leaf.toNat)) ∧
          t.mem.ctx = s.mem.ctx ∧ t.mem.shoal = s.mem.shoal ∧ t.regions = (s.sliceIn off 5492).regions ∧
          t.outbox = s.outbox)

/-- R409 to R412, R416. -/
def Obligations.AttestationBecomesReady : Prop :=
  ∀ (e : Env) (s : State),
    (s.sec.keysLive = true → s.sec.att = 0 →
      (s.sec.bindPending = false →
        ∃ t, exec (.attestationReady e) s = .next t ∧
          t.sec = { s.sec with att := if s.sec.leaf.toNat = 2 ^ 25 then 2 else 1 } ∧
          t.vault.tree = s.sec.leaf.toNat / 32768 ∧ t.mem = s.mem ∧ t.regions = s.regions) ∧
      (s.sec.bindPending = true → s.sec.leaf.toNat < 2 ^ 25 →
        s.vault.block = some (BitVec.ofNat 32 (s.sec.leaf.toNat / 256)) →
        ∃ t, exec (.attestationReady e) s = .next t ∧ t.sec.leaf.toNat = s.sec.leaf.toNat + 1 ∧
          t.sec.bindPending = (e.logBad || e.mirrorBad) ∧ t.mem = s.mem ∧
          (e.logBad = false → e.mirrorBad = false → ∃ n, t.vault.binding = some ⟨n, natToBytes 32 s.sec.owner.toNat, s.pk.imageSeq⟩))) ∧
    (s.sec.att = 1 → 16384 ≤ s.sec.leaf.toNat % 32768 → s.vault.attWait = false →
      exec (.bottomTreeBuilt e) s = .next { s with vault := { s.vault with nextTree := true } }) ∧
    (s.sec.att = 1 → s.vault.attWait = true → s.sec.leaf.toNat / 32768 ≠ s.vault.tree →
      ∃ t, exec (.bottomTreeBuilt e) s = .next t ∧ t.vault.attWait = false ∧ t.vault.nextTree = false ∧
        t.vault.tree = s.sec.leaf.toNat / 32768 ∧ (t.sec.attResult = 2 ∨ t.sec.attResult = 3)) ∧
    (s.sec.att = 1 → s.sec.leaf.toNat % 32768 < 16384 → s.sec.leaf.toNat / 32768 = s.vault.tree →
      exec (.bottomTreeBuilt e) s = .next s) ∧
    (s.pk.lead = true → s.pk.running = true → s.sec.pkgAuth = false → s.alarmed = false →
      (∀ reports, s.sec.att = 1 →
        ((s.presentIds.filter (· != s.pk.id.toNat)).all (s.memberOk reports) = true →
          ∃ t, exec (.packageAuth reports e) s = .next t ∧ t.sec = { s.sec with pkgAuth := true } ∧ t.mem = s.mem ∧
            t.regions = s.regions) ∧
        ((s.presentIds.filter (· != s.pk.id.toNat)).all (s.memberOk reports) = false → s.power.st ≠ .off →
          ∃ t, exec (.packageAuth reports e) s = .next t ∧ t.sec.alarm = s.sec.alarm ||| 16 ∧ t.sec.pkgAuth = false)) ∧
      (s.power.st ≠ .off → ∃ t, exec (.attReadyTimeout e) s = .next t ∧ t.sec.alarm = s.sec.alarm ||| 16)) ∧
    (s.sec.pkgAuth = true → exec (.attReadyTimeout e) s = .next s)

/-- R423, R428, R429. Bit 5 of SEC_ALARM is the scan source (R417). -/
def Obligations.TapInstructionsNeedTheirLevel : Prop :=
  ∀ (i : TapInstr) (e : Env) (s : State),
    (s.sec.level.toNat < tapLevel i → (i ≠ .scan ∧ i ≠ .mbist) ∨ s.sec.keysLive = false →
      exec (.tapInstruction i e) s = .next s) ∧
    (s.sec.level.toNat < 3 → s.sec.keysLive = true → i = .scan ∨ i = .mbist → s.power.st ≠ .off →
      ∃ t, exec (.tapInstruction i e) s = .next t ∧ t.sec.alarm = s.sec.alarm ||| 32 ∧ t.sec.keysLive = false) ∧
    (2 ≤ s.sec.level.toNat →
      (∀ r : Region, i = .halt r.1 →
        ∃ t, exec (.tapInstruction i e) s = .next t ∧ t.power.haltedRegions.getLsbD r.1 = true ∧ t.regionOn r = true ∧
          t.mem = s.mem ∧ t.regions = s.regions ∧ t.clusters = s.clusters) ∧
      (∀ k : Fin 64, i = .release (8 + k.1) →
        ∃ t, exec (.tapInstruction i e) s = .next t ∧ t.power.haltedClusters.getLsbD k.1 = false ∧ t.mem = s.mem ∧
          t.clusters = s.clusters) ∧
      (∀ b data crc, i = .lagoonWrite b data crc true → data.length = 64 →
        ∃ t, exec (.tapInstruction i e) s = .next t ∧ LagoonHolds s t (64 * b) data ∧ t.poisoned b = true ∧
          t.mem.ctx = s.mem.ctx ∧ t.mem.shoal = s.mem.shoal) ∧
      (∀ b, i = .lagoonRead b →
        ∃ t, exec (.tapInstruction i e) s = .next t ∧ t.outbox.length = s.outbox.length + 9 ∧ t.mem = s.mem)) ∧
    (∀ id on, i = .segment id on →
      ∃ t, exec (.tapInstruction i e) s = .next t ∧ t.mem = s.mem ∧ t.proto = s.proto ∧
        t.vault.segments.getLsbD id.toNat = (on && s.segmentOpens id)) ∧
    (∀ id data, i = .shift id data → s.vault.segments.getLsbD id.toNat = true →
      (s.vault.segBusy.getLsbD id.toNat = false → ∀ p, s.routePort id.toNat = some p →
        ∃ t, exec (.tapInstruction i e) s = .next t ∧ t.vault.segBusy.getLsbD id.toNat = true ∧ t.mem = s.mem)) ∧
    ∀ (id : BitVec 3) (out : W64),
      (s.vault.segBusy.getLsbD id.toNat = true →
        ∃ t, exec (.segmentShiftUnit id out) s = .next t ∧ t.outbox = s.outbox ++ [.tdo out] ∧
          t.vault.segBusy.getLsbD id.toNat = false ∧ t.mem = s.mem ∧ t.sec = s.sec) ∧
      (s.vault.segBusy.getLsbD id.toNat = false → exec (.segmentShiftUnit id out) s = .next s)
/-- R13, R379, R449: RC registers clear when read, and other reads change nothing; a read of a region's control block
reaches the region, whose clock it starts. The value read leaves through the outbox. -/
def Obligations.ReadsClearOnlyCountsThatClear : Prop :=
  ∀ (e : Env) (s : State), s.power.st ≠ .off →
    (∀ (r : Region) (i : RingNo),
      exec (.readToClear .family (64 + r.1) (64 * i.1 + 0x20) false e) s =
        .next (((s.onRing r i fun q => { q with rejects := 0 }).wakeRegion r).emit
          (.value (BitVec.ofNat 64 ((s.ring r i).rejects.toNat * 65536 + s.ringState (s.ring r i)))))) ∧
    (∀ r : Region,
      exec (.readToClear .family (64 + r.1) 0x4014 false e) s =
        .next (((s.onRegion r fun x => { x with flt := { x.flt with lost := 0 } }).wakeRegion r).emit
          (.value ((s.regions.get r).flt.lost.setWidth 64))) ∧
      exec (.readToClear .family (64 + r.1) 0x8010 true e) s =
        .next (((s.onFerry r fun y => { y with drops := 0 }).wakeRegion r).emit (.value (s.regions.get r).fy.drops))) ∧
    exec (.readToClear .family 73 0x18 true e) s =
      .next ({ s with proto := { s.proto with lastRefused := LastRefused.reset } }.emit
        (.value (BitVec.ofNat 64 s.proto.lastRefused.toNat))) ∧
    exec (.readToClear .family 75 0x810 false e) s =
      .next ({ s with ao := { s.ao with cause := 0 } }.emit (.value (s.ao.cause.setWidth 64))) ∧
    exec (.readToClear .family 78 0x18 false e) s =
      .next ({ s with proto := { s.proto with tagPeak := 0 } }.emit (.value (s.proto.tagPeak.setWidth 64))) ∧
    ∀ (blk off : Nat) (wide : Bool), off < 65536 → ctlAligned off (if wide then 8 else 4) = true →
      (72 ≤ blk → blk < 79 → ¬(blk = 73 ∧ off / 8 = 3) → ¬(blk = 75 ∧ off / 8 = 0x102) → ¬(blk = 78 ∧ off / 8 = 3) →
        ¬(blk = 77 ∧ 0x8000 ≤ off) →
        ∃ v, exec (.readToClear .family blk off wide e) s = .next (s.emit (.value v))) ∧
      (∀ a n, s.logOpen = true → 0x8000 ≤ off → n = (if wide then 8 else 4) →
        a = s.life.logWin.toNat * 0x8000 + (off - 0x8000) → a + n ≤ s.life.logSize →
        exec (.readToClear .family 77 off wide e) s =
          .next (s.emit (.value (BitVec.ofNat 64 (bytesToNat (logRead s.life.log a n)))))) ∧
      (s.pk.lead = false → blk < 256 → exec (.readToClear .i3c blk off wide e) s = .next (s.emit (.value 0)))

/-- R13: RWL fields ignore writes once the package is declared running; R319: the gate's windows among them. -/
def Obligations.SettingsAreLockedInOperation : Prop :=
  ∀ (by_ : Initiator) (off : Nat) (wide : Bool) (v : W64) (e : Env) (s : State), off < 65536 →
    ctlAligned off (if wide then 8 else 4) = true →
    (off / 8 ≠ 3 → exec (.registerWrite by_ 74 off wide v e) s = .next s) ∧
    (s.pk.running = true →
      exec (.registerWrite by_ 73 off wide v e) s = .next s ∧
      exec (.registerWrite by_ 72 off wide v e) s = .next s ∧
      exec (.registerWrite by_ 78 off wide v e) s = .next s ∧
      (off / 8 = 0 → exec (.registerWrite by_ 75 off wide v e) s = .next s ∧
        exec (.registerWrite by_ 76 off wide v e) s = .next s) ∧
      ∀ r : Region, off / 8 = 0x1001 ∨ off / 8 = 0x1100 →
        ∃ t, exec (.registerWrite by_ (64 + r.1) off wide v e) s = .next t ∧ t = { s with power := t.power })

/-- R13, R34, R220, R368, R377, R379 and the register tables: what a write sets. -/
def Obligations.WritesSetTheirFields : Prop :=
  ∀ (v : W64) (e : Env) (s : State), s.power.st ≠ .off →
    (s.pk.running = false →
      exec (.registerWrite .family 75 0 false v e) s =
        .next { s with power := { s.power with slackDelay := v.extractLsb' 16 8, clusterDelay := v.extractLsb' 8 8 } } ∧
      exec (.registerWrite .family 72 0 false v e) s =
        .next { s with link := { s.link with replayTo := v.extractLsb' 0 16 } } ∧
      exec (.registerWrite .family 78 0 false v e) s =
        .next { s with proto := { s.proto with stackWays := v.extractLsb' 6 2, stackGran := v.extractLsb' 0 4 } } ∧
      exec (.registerWrite .family 78 0x10 false v e) s =
        .next { s with proto := { s.proto with defTags := v.extractLsb' 0 8 } } ∧
      ∀ r : Region,
        exec (.registerWrite .family (64 + r.1) 0x8008 false v e) s =
          .next ((s.wakeRegion r).onFerry r fun y => { y with tagCap := v.extractLsb' 0 15 }) ∧
        exec (.registerWrite .family (64 + r.1) 0x8800 false v e) s =
          .next ((s.wakeRegion r).onFerry r fun y => { y with scrubEn := v.getLsbD 31, scrubPeriod := v.extractLsb' 0 16 })) ∧
    exec (.registerWrite .family 75 0x808 true v e) s =
      .next { s with ao := { s.ao with timerEn := v.getLsbD 63, timer := v.extractLsb' 0 48 } } ∧
    (∀ (k : Fin 64) (r : Region), s.present (k.1 / 8) (k.1 % 8) = true →
      ∃ t, exec (.registerWrite (.controller r) k.1 0 false v e) s = .next t ∧
        (t.clusters.get k).mode = v.extractLsb' 0 32 &&& 0x3FFF3FF0 ∧ (t.clusters.get k).epi = (s.clusters.get k).epi ∧
        t.mem = s.mem ∧ t.regions = s.regions) ∧
    ∀ (blk off : Nat) (wide : Bool), off < 65536 → blk < 256 →
      (ctlAligned off (if wide then 8 else 4) = true →
        (s.pk.lead = false → exec (.registerWrite .i3c blk off wide v e) s = .next s) ∧
        (blk ≠ 76 → exec (.registerWrite .tap blk off wide v e) s = .next s) ∧
        (blk < 64 → ∃ t, exec (.registerWrite .family blk off wide v e) s = .next t ∧ t.clusters = s.clusters ∧
          t.mem = s.mem ∧ t.regions = s.regions)) ∧
      ∀ who, ctlAligned off (if wide then 8 else 4) = false → (s.regions.get (initRegion who)).flt.en = false →
        exec (.registerWrite who blk off wide v e) s = .next (s.faultLost (initRegion who))

/-- R386, R442, R445 to R448. Reason 1 is the expiry, 2 the power-down, 3 LT_CTRL.FLUSH (R442). -/
def Obligations.LifetimeFlushes : Prop :=
  ∀ s : State,
    (s.leadRuns = true → s.life.busy = false →
      (∃ t, exec .ltCtrlFlush s = .next t ∧ t.life.busy = true ∧ t.life.reason = 3 ∧ t.life.snap = s.life.counts.bytes ∧
        t.life.counts = s.life.counts ∧ t.mem = s.mem ∧ t.regions = s.regions) ∧
      (∃ t, exec .ltFloodCcExpiry s = .next t ∧ t.life.busy = true ∧ t.life.reason = 1 ∧ t.life.floodCc = 0 ∧
        t.life.snap = s.life.counts.bytes ∧ t.mem = s.mem)) ∧
    (s.pk.lead = true → s.power.runs = true → s.power.offPending = false →
      ∃ t, exec (.offReq false) s = .next t ∧ t.power.offPending = true ∧ t.life.busy = true ∧
        t.power.safeOff = s.power.safeOff ∧ .toPkg .stopRings ∈ t.outbox ∧ t.mem = s.mem ∧ t.regions = s.regions ∧
        (s.life.busy = false → t.life.reason = 2) ∧ (s.life.busy = true → t.life = s.life)) ∧
    (s.pk.lead = false → exec .ltCtrlFlush s = .next s ∧ exec .ltFloodCcExpiry s = .next s ∧ exec (.offReq false) s = .next s ∧
      (s.power.runs = true → exec (.offReq true) s = .next { s with power := { s.power with offPending := true } })) ∧
    (s.life.busy = false →
      ∃ t, exec .ltCtrlSnap s = .next t ∧ t.life.snap = s.life.counts.bytes ∧ t.life.snapValid = true ∧ t.mem = s.mem) ∧
    (s.life.busy = true →
      exec .ltCtrlSnap s = .next { s with life := { s.life with snapLater := true } } ∧
      exec .ltCtrlFlush s = .next s ∧ exec .ltFloodCcExpiry s = .next s ∧
      ∀ (e : Env) (rec_ : List Byte), rec_ = s.logRecord 1 (bit s.life.fresh + 2 * s.life.reason.toNat) s.life.snap →
        ∃ t, exec (.flushComplete e) s = .next t ∧ t.life.lastReason = s.life.reason ∧
          t.life.flushes.toNat = min (2 ^ 25 - 1) (s.life.flushes.toNat + 1) ∧
          t.power.safeOff = (s.power.safeOff || s.life.reason == 2) ∧
          t.life.busy = (s.power.offPending && s.life.reason != 2) ∧ s.outbox ++ [.append rec_] <+: t.outbox ∧
          t.mem = s.mem ∧ t.regions = s.regions ∧ t.clusters = s.clusters ∧ t.proto = s.proto ∧ t.link = s.link ∧
          (s.pk.lead = true → e.logBad = true → t.life.log = s.life.log ∧ t.life.logFail = true) ∧
          (s.pk.lead = true → e.logBad = false → e.mirrorBad = false → e.records = [] → s.life.alarmLater = false →
            t.life.log = logAppend s.life.log s.life.logSize rec_ ∧ t.life.logFail = s.life.logFail)) ∧
    ∀ e : Env, s.life.busy = false → s.pk.lead = false → s.life.mirror = true → e.logBad = false →
      ∃ t, exec (.flushComplete e) s = .next t ∧ t.life.logSize = s.life.logSize ∧ t.mem = s.mem ∧
        t.life.log = (e.records.filter mirrored).foldl (fun l x => logAppend l s.life.logSize x) s.life.log

/-- R239, R245: a write of FY_START, for every context number; it reaches the region's control block, whose clock it
starts (R379). -/
def Obligations.ContextStartsAreQueued : Prop :=
  ∀ (r : Region) (v : W32) (e : Env) (s : State) (n : Nat), n = field v.toNat 0 18 → memWf s.mem.ctx = true →
    (n / 32768 = r.1 → n ∉ (s.regions.get r).fy.queue → (∀ c ∈ (s.regions.get r).fy.loaded, c.number ≠ some n) →
      (s.regions.get r).fy.queue.length < 4096 →
      ∃ t : State, exec (.fyStart r v e) s = .next t ∧ WakesOnly s t ∧
        (t.regions.get r).fy = { (s.regions.get r).fy with queue := (s.regions.get r).fy.queue ++ [n] } ∧
        (t.tableCtx n).state = 1 ∧ { t.tableCtx n with state := 0 } = { s.tableCtx n with state := 0 } ∧
        (∀ m, m ≠ n → t.tableCtx m = s.tableCtx m) ∧ t.mem.lagoon = s.mem.lagoon ∧ t.mem.shoal = s.mem.shoal ∧
        (∀ q, q ≠ r → t.regions.get q = s.regions.get q) ∧ t.clusters = s.clusters) ∧
    (n / 32768 = r.1 → (n ∈ (s.regions.get r).fy.queue ∨ ∃ c ∈ (s.regions.get r).fy.loaded, c.number = some n) →
      exec (.fyStart r v e) s = .next (s.wakeRegion r)) ∧
    (n / 32768 ≠ r.1 → exec (.fyStart r v e) s =
      .next ((⟨s.wakeRegion r, e⟩ : W).fault r { source := 9, cause := 1, region := r.1, detail := n }).s) ∧
    (n / 32768 = r.1 → n ∉ (s.regions.get r).fy.queue → (∀ c ∈ (s.regions.get r).fy.loaded, c.number ≠ some n) →
      4096 ≤ (s.regions.get r).fy.queue.length → exec (.fyStart r v e) s =
      .next ((⟨(s.wakeRegion r).onFerry r fun y => { y with drops := y.drops + 1 }, e⟩ : W).fault r
        { source := 9, cause := 2, region := r.1, detail := n }).s)

/-- R237, R239 for room and order, R241 for the bytes of a copy, R240, R243, R245 for contexts that cannot run. -/
def Obligations.FerriesMoveBlocks : Prop :=
  ∀ (r : Region) (e : Env) (s : State),
    ((s.regions.get r).fy.queue = [] ∨ s.ferriesRun r = false ∨
        (∀ e0, e0 < 8 → 16 ≤ ((s.regions.get r).fy.onEngine none e0).length) →
      exec (.ferryContextTakeup r e) s = .next s) ∧
    ∀ (n : Nat) (rest : List Nat), (s.regions.get r).fy.queue = n :: rest → MayTakeUp s r →
      (∃ t : State, exec (.ferryContextTakeup r e) s = .next t ∧ (t.regions.get r).fy.queue = rest ∧
        (t.regions.get r).fy.nextId = (s.regions.get r).fy.nextId + 1 ∧ t.pk = s.pk ∧ t.sec = s.sec) ∧
      (∀ a b : Nat, BlockCopy s (s.tableCtx n) a b → CleanSpan e s a 64 →
        ∃ t : State, exec (.ferryContextTakeup r e) s = .next t ∧ LagoonHolds s t b (memReadN s.mem.lagoon a 64) ∧
          (t.loaded r (s.regions.get r).fy.nextId).map (fun c => (c.number, c.c.cur, c.bytes)) = some (some n, 1, 64)) ∧
      ({ s.tableCtx n with state := 1 }.badFormat = true ∨ (s.tableCtx n).badPlace = true → (s.tableCtx n).recRel = false →
        (s.tableCtx n).recd = 0 → (s.regions.get r).flt.en = false → memWf s.mem.ctx = true →
        ∃ t : State, exec (.ferryContextTakeup r e) s = .next t ∧ (t.tableCtx n).state = 3 ∧
          (t.tableCtx n).cause = (if { s.tableCtx n with state := 1 }.badFormat = true then 3 else 4) ∧
          (t.regions.get r).fy.loaded = (s.regions.get r).fy.loaded ∧ t.mem.lagoon = s.mem.lagoon ∧
          t.mem.shoal = s.mem.shoal)

/-- R248 and R237: a read of a ferry to a memory stack, a peer chiplet or a harbour window; the way it goes is that
of R217, R311 and R316 (`W.exit`), and a window with ORD numbers it (R316). -/
def Obligations.FerriesReadUnderTags : Prop :=
  ∀ (r : Region) (id : Nat) (e : Env) (s : State) (c : LoadedCtx), s.loaded r id = some c →
    (s.wantsRead c = false ∨ s.freeTag = none ∨ s.ferriesRun r = false ∨ s.tagAllows r c = false ∨ s.itsTurn r c = false →
      exec (.ferryReadIssue r id e) s = .next s) ∧
    ∀ (f : Fmt) (row off n a : Nat) (rows : List RowBuf) (tag : BitVec 14), Fmt.ofCode c.c.fmt = some f →
      c.nextPiece f = some (row, off, n, rows) → a = (c.c.srcRow (row / c.c.rows) (row % c.c.rows) + off) % 2 ^ 56 →
      s.wantsRead c = true → s.freeTag = some tag → s.ferriesRun r = true → s.tagAllows r c = true → s.itsTurn r c = true →
      (∀ (v : Way) (u : W), (⟨s, e⟩ : W).exit a .read = (u, .inl v) →
        ∀ q : Post, q =
          { port := v.port, op := 1, atop := 0, addr := v.addr - (if isMemory v.port then v.addr % 64 else 0),
            len := if isMemory v.port then (v.addr + n + 63) / 64 * 64 - (v.addr - v.addr % 64) else n,
            data := [], op0 := 0, op1 := 0, ostr := (u.s.numbered v).2.1, oseq := (u.s.numbered v).2.2,
            use_ := .ferry r id row off n (if isMemory v.port then v.addr % 64 else 0) } →
        ((u.s.numbered v).1.mayPost q = true →
          ∃ t : State, exec (.ferryReadIssue r id e) s = .next t ∧ t.proto.reads = s.proto.reads ++ [⟨tag, false, q⟩] ∧
            (s.proto.reads.length < 16384 → s.proto.reads.length + 1 ≤ t.proto.tagPeak.toNat) ∧ t.mem = s.mem ∧ t.clusters = s.clusters ∧
            (t.regions.get r).rings = (s.regions.get r).rings) ∧
        ((u.s.numbered v).1.mayPost q = false → exec (.ferryReadIssue r id e) s = .next s)) ∧
      ∀ (st : Status) (u : W), (⟨s, e⟩ : W).exit a .read = (u, .inr st) →
        ∃ t : State, exec (.ferryReadIssue r id e) s = .next t ∧ t.loaded r id = none ∧ t.proto.reads = s.proto.reads

/-- R245, R247: the end of a context and its record. -/
def Obligations.FerryContextsEnd : Prop :=
  ∀ (r : Region) (id : Nat) (e : Env) (s : State) (c : LoadedCtx), s.loaded r id = some c →
    (c.complete = false ∨ s.alarmed = true → exec (.ferryContextDone r id e) s = .next s) ∧
    (c.complete = true → s.alarmed = false → s.recordOf c = 0 → memWf s.mem.ctx = true →
      (∀ n : Nat, c.number = some n →
        ∃ t : State, exec (.ferryContextDone r id e) s = .next t ∧
          (∀ m, t.loaded r m = if m = id then none else s.loaded r m) ∧
          t.clusters = s.clusters ∧ t.pk = s.pk ∧
          (c.c.nextEn = false → (t.tableCtx n).state = 2 ∧ (t.tableCtx n).cause = 0 ∧
            (t.regions.get r).fy.queue = (s.regions.get r).fy.queue ∧ t.mem.lagoon = s.mem.lagoon) ∧
          (c.c.nextEn = true → c.c.next / 32768 = r.1 → c.c.next ∉ (s.regions.get r).fy.queue →
            (∀ x ∈ (s.regions.get r).fy.loaded, x.id ≠ id → x.number ≠ some c.c.next) →
            (s.regions.get r).fy.queue.length < 4096 →
            (t.regions.get r).fy.queue = (s.regions.get r).fy.queue ++ [c.c.next] ∧ t.mem.lagoon = s.mem.lagoon ∧
              (c.c.next ≠ n → (t.tableCtx n).state = 2 ∧ (t.tableCtx n).cause = 0))) ∧
      (c.number = none → NoneWait s r →
        ∃ t : State, exec (.ferryContextDone r id e) s = .next t ∧ t.mem = s.mem ∧ t.clusters = s.clusters ∧
        (∀ m, t.loaded r m = if m = id then none else s.loaded r m) ∧
        (t.regions.get r).fy.staged = (s.regions.get r).fy.staged.map fun x =>
          if id ∈ x.ids then { x with ids := x.ids.erase id, left := x.left - 1 } else x)) ∧
    (c.complete = true → s.alarmed = false → s.recordOf c ≠ 0 → c.c.nextEn = false →
      (c.number = none → NoneWait s r) → ∀ off, s.locate (s.recordOf c) = .lagoon off → CleanSpan e s off 320 →
        ∃ t : State, exec (.ferryContextDone r id e) s = .next t ∧ t.loaded r id = none ∧
          LagoonHolds s t off (recAfter (memReadN s.mem.lagoon off 320)
            ⟨c.bytes, if c.number.isSome then 1 else 0, c.flags.toNat, none, none, []⟩))

/-- R225, R228 for the scrub read of block `b`, R392 and R423 for the times that hold it; R227, R379 for LG_CLEAR. -/
def Obligations.ScrubbingFindsBadBlocks : Prop :=
  ∀ (r : Region) (e : Env) (s : State),
    ((s.regions.get r).fy.scrubEn = false ∨ s.regionOn r = false ∨ s.power.forced = true ∨
        s.power.haltedRegions.getLsbD r.1 = true → exec (.scrubTick r e) s = .next s) ∧
    (∀ b : Nat, b = r.1 * 2097152 + (s.regions.get r).fy.scrubPos.toNat → (s.regions.get r).fy.scrubEn = true →
      s.regionOn r = true → s.power.forced = false → s.power.haltedRegions.getLsbD r.1 = false →
      ∃ t : State, exec (.scrubTick r e) s = .next t ∧ t.clusters = s.clusters ∧ t.pk = s.pk ∧
        (t.regions.get r).fy.scrubPos = (s.regions.get r).fy.scrubPos + 1 ∧
        (s.poisoned b = true → t.mem = s.mem ∧
          (t.regions.get r).fy = { (s.regions.get r).fy with scrubPos := (s.regions.get r).fy.scrubPos + 1 }) ∧
        (s.poisoned b = false → s.crcWrong b = false → b ∉ e.crcTwice → b ∈ e.crcOnce → t.mem = s.mem ∧
          (t.regions.get r).fy = { (s.regions.get r).fy with
            scrubPos := (s.regions.get r).fy.scrubPos + 1, reread := (s.regions.get r).fy.reread + 1 }) ∧
        (s.poisoned b = false → s.crcWrong b = false → b ∉ e.crcTwice → b ∉ e.crcOnce → t.mem = s.mem ∧
          (t.regions.get r).fy = { (s.regions.get r).fy with scrubPos := (s.regions.get r).fy.scrubPos + 1 }) ∧
        (s.poisoned b = false → s.crcWrong b = true ∨ b ∈ e.crcTwice → (s.regions.get r).flt.en = false →
          (∀ x, t.poisoned x = (s.poisoned x || x == b)) ∧ t.mem.lagoon = s.mem.lagoon ∧ t.mem.crcBad = s.mem.crcBad ∧
          (t.regions.get r).fy = { (s.regions.get r).fy with
            scrubPos := (s.regions.get r).fy.scrubPos + 1, poisonCnt := (s.regions.get r).fy.poisonCnt + 1,
            lastPoison := some (BitVec.ofNat 24 b) } ∧
          (t.regions.get r).flt.lost = (s.regions.get r).flt.lost + 1)) ∧
    ∀ v : W64, ∃ t : State, exec (.lgClear r v) s = .next t ∧ WakesOnly s t ∧ t.regions = s.regions ∧
      t.clusters = s.clusters ∧
      (field v.toNat 6 24 / 2097152 = r.1 →
        LagoonHolds s t (64 * field v.toNat 6 24) (List.replicate 64 0) ∧
        (∀ x, t.poisoned x = (s.poisoned x && x != field v.toNat 6 24)) ∧
        ∀ x, t.crcWrong x = (s.crcWrong x && x != field v.toNat 6 24)) ∧
      (field v.toNat 6 24 / 2097152 ≠ r.1 → t = s.wakeRegion r)

/-- R197-R204 for staging by `stageBlock` at levels 0, 1 and 2 (L3, L2, L1); R209, R231, R369 for `writeBack`. The order
of the stager is `State.stagerAt`, the choice of a slot `State.pickSlot`, the contexts of a tile's fill
`State.fillContexts`. -/
def Obligations.StagingAndWriteBack : Prop :=
  (∀ (r : Region) (slot : SlotNo) (pat drv : Nat) (coords : List Nat) (e : Env) (s : State) (c : Chart) (p : Pattern),
    (s.inst r slot).chart = some c → c.patterns[pat]? = some p →
    (¬ MayStage s r slot p.level drv → exec (.stageBlock r slot pat (drv :: coords) e) s = .next s) ∧
    (MayStage s r slot p.level drv →
      (p.level = 1 → c.l2.slots = 0 → exec (.stageBlock r slot pat (drv :: coords) e) s =
        .next (s.onCluster (fin 63 drv) fun y => { y with engPattern := y.engPattern.set! (pat % 4) (BitVec.ofNat 8 pat) })) ∧
      (p.level = 0 ∨ p.level = 1 ∧ c.l2.slots ≠ 0 →
        ((∃ m, InStaging s (r, slot) pat p.level (drv :: coords) m) → NoneWait s (driverRegion p.level drv) →
          exec (.stageBlock r slot pat (drv :: coords) e) s = .next s) ∧
        ((∀ m, ¬ InStaging s (r, slot) pat p.level (drv :: coords) m) →
          (s.stagerAt (r, slot) c (s.inst r slot).bounds p.level pat drv coords = false ∨
            s.pickSlot (r, slot) c (s.inst r slot).bounds p.level drv coords = none →
            exec (.stageBlock r slot pat (drv :: coords) e) s = .next s) ∧
          ∀ (n : Nat) (gone : List Staged) (o : List Nat) (x : Src),
            o = (List.range 5).map (fun d => coords.getD d 0 * (c.stageLoop p.level).ext d) →
            coords.length = 5 → (∀ d, d < 5 → o.getD d 0 < boundOf (s.inst r slot).bounds d) →
            s.unitClusters (r, slot) p.level drv ≠ [] → (p.units drv).headD 64 = drv →
            (if p.level = 0 then some (argSrc (boundArg c (s.inst r slot).args p.arg) s.pk.id.toNat)
              else s.src (r, slot) c (s.inst r slot).args drv 1 p.arg o) = some x →
            s.stagerAt (r, slot) c (s.inst r slot).bounds p.level pat drv coords = true →
            s.pickSlot (r, slot) c (s.inst r slot).bounds p.level drv coords = some (n, gone) →
            ∃ t : State, exec (.stageBlock r slot pat (drv :: coords) e) s = .next t ∧
              InStaging t (r, slot) pat p.level (drv :: coords) n ∧ t.pk = s.pk ∧ t.sec = s.sec)) ∧
      (p.level = 2 → ∀ (i n : Nat) (rest : List Nat) (q : Position) (g : TileGeom) (x : Src), coords = i :: rest →
        (s.clusters.get (fin 63 drv)).slotOf c i = some n → (s.clusters.get (fin 63 drv)).pos = some q →
        g = tileGeom c (s.inst r slot).bounds i q.quad → (∀ m, ¬ InStaging s (r, slot) pat 2 [drv, i] m) →
        (s.src (r, slot) c (s.inst r slot).args drv 2 p.arg [g.row0, g.col0, 0, g.b1, g.b2] = none →
          exec (.stageBlock r slot pat (drv :: coords) e) s = .next s) ∧
        (s.src (r, slot) c (s.inst r slot).args drv 2 p.arg [g.row0, g.col0, 0, g.b1, g.b2] = some x →
          (s.fillContexts c (s.inst r slot).args p drv i n g x = [] →
            exec (.stageBlock r slot pat (drv :: coords) e) s = .next (s.onCluster (fin 63 drv) fun y =>
              { y with engPattern := y.engPattern.set! (pat % 4) (BitVec.ofNat 8 pat) })) ∧
          (s.fillContexts c (s.inst r slot).args p drv i n g x ≠ [] →
            (∀ u ∈ p.units drv, ∀ h ∈ (s.clusters.get (fin 63 u)).held, h.2 = n → h.1 = i) →
            (p.units drv).headD 64 = drv →
            ∃ t : State, exec (.stageBlock r slot pat (drv :: coords) e) s = .next t ∧
              InStaging t (r, slot) pat 2 [drv, i] n ∧ t.pk = s.pk ∧ t.sec = s.sec))))) ∧
  ∀ (r : Region) (slot : SlotNo) (pos pat : Nat) (e : Env) (s : State) (c : Chart) (p : Pattern) (q : Position)
    (k : Fin 64) (o : OutSlot), (s.inst r slot).chart = some c → c.patterns[pat]? = some p →
    c.positions[pos]? = some q → k = fin 63 (8 * q.region + q.cluster) →
    (s.clusters.get k).outs.find? (·.arg == p.arg) = some o →
    (p.level ≠ 3 ∨ q.chiplet ≠ s.pk.id.toNat ∨ (s.clusters.get k).inst ≠ some (r, slot) ∨ s.alarmed = true ∨
        s.clusterOn k = false ∨ (shapeMulti (modeShape c.mode) = true ∧
          ∃ j ∈ s.groupClusters (r, slot) q.group, (s.clusters.get j).arrayDone o.index = false) →
      exec (.writeBack r slot pos pat e) s = .next s) ∧
    (p.level = 3 → q.chiplet = s.pk.id.toNat → (s.clusters.get k).inst = some (r, slot) → s.alarmed = false →
      s.clusterOn k = true → (shapeMulti (modeShape c.mode) = false ∨
        (∀ j ∈ s.groupClusters (r, slot) q.group, (s.clusters.get j).arrayDone o.index = true) ∧
          ((∀ x ∈ c.members q.group, x.chiplet = s.pk.id.toNat) ∨ e.groupDone = true)) →
      ∃ t : State, exec (.writeBack r slot pos pat e) s = .next t ∧ o ∉ (t.clusters.get k).outs ∧ t.pk = s.pk ∧
        (o.poisoned = true → (s.inst r slot).st = .running → (s.inst r slot).faulting = 0 → p.ctx.recRel = false →
          p.ctx.recd = 0 → (s.regions.get (fin 7 q.region)).flt.en = false → (t.inst r slot).faulting = 4 ∧ t.mem = s.mem) ∧
        ∀ (off : Nat) (part : Nat × Nat), o.poisoned = false → o.geom.mv = 1 → 0 < o.geom.nv → o.geom.nv ≤ 128 →
          o.fmt.width = 8 → c.accum = false → e.eccOne = [] → e.eccTwo = [] → outParts c o 0 = [part] →
          p.ctx.recRel = false → p.ctx.recd = 0 →
          s.locateN (elemAddr (boundArg c (s.inst r slot).args o.arg) o.fmt false s.pk.id.toNat (o.geom.row0 + 0)
            o.geom.col0 o.geom.b1 o.geom.b2) o.geom.nv = .lagoon off → CleanSpan e s off o.geom.nv →
          LagoonHolds s t off ((memReadN s.mem.shoal (k.1 * 4194304 + part.1) part.2).take o.geom.nv) ∧
            (t.clusters.get k).fyBytes = (s.clusters.get k).fyBytes + BitVec.ofNat 64 o.geom.nv)

/-- R188, R206 for draws, R372 for redo entries, R361 for the end of the draws; a group led elsewhere takes the index
that its leader passes, `remote` (log 142). -/
def Obligations.DrawsIssueTiles : Prop :=
  ∀ (r : Region) (slot : SlotNo) (grp : Nat) (remote : Option W64) (s : State) (c : Chart) (g : Group) (p : Position),
    (s.inst r slot).chart = some c → (s.inst r slot).groups.find? (·.g == grp) = some g → c.leader grp = some p →
    (∀ x ∈ (s.inst r slot).groups, x.g = grp → x = g) → tileCount c (s.inst r slot).bounds < 2 ^ 63 →
    (¬ MayDraw s (r, slot) g p → exec (.counterDraw r slot grp remote) s = .next s) ∧
    (MayDraw s (r, slot) g p →
      (∀ (n : Nat) (rest : List Nat), p.chiplet = s.pk.id.toNat → g.redo = n :: rest →
        ∃ t : State, exec (.counterDraw r slot grp remote) s = .next t ∧
          TileIssued s t (r, slot) c grp n rest ∧ (∀ m, t.counter m = s.counter m) ∧ t.mem = s.mem) ∧
      (g.redo = [] → p.chiplet = s.pk.id.toNat → p.ctrChiplet = s.pk.id.toNat → p.counter < 1024 →
        ∃ t : State, exec (.counterDraw r slot grp remote) s = .next t ∧ t.mem = s.mem ∧ WakesOnly s t ∧
          (∀ m, m < 1024 → m ≠ p.counter → t.counter m = s.counter m) ∧
          ((s.counter p.counter).value.toNat < (s.counter p.counter).limit.toNat →
            t.counter p.counter = { s.counter p.counter with value := (s.counter p.counter).value + 1 } ∧
            if (s.counter p.counter).value.toNat < tileCount c (s.inst r slot).bounds
            then TileIssued s t (r, slot) c grp (s.counter p.counter).value.toNat []
            else GroupEnded s t (r, slot) c grp) ∧
          ((s.counter p.counter).limit.toNat ≤ (s.counter p.counter).value.toNat →
            t.counter p.counter = s.counter p.counter ∧ GroupEnded s t (r, slot) c grp)) ∧
      (g.redo = [] ∨ p.chiplet ≠ s.pk.id.toNat → ¬ (p.chiplet = s.pk.id.toNat ∧ p.ctrChiplet = s.pk.id.toNat) →
        (remote = none → exec (.counterDraw r slot grp remote) s = .next s) ∧
        ∀ v : W64, remote = some v → ∃ t : State, exec (.counterDraw r slot grp remote) s = .next t ∧
          (∀ m, t.counter m = s.counter m) ∧ t.mem = s.mem ∧
          if v.toNat < tileCount c (s.inst r slot).bounds then TileIssued s t (r, slot) c grp v.toNat g.redo
          else GroupEnded s t (r, slot) c grp))

/-- R88-R99, R119 for steps and chunks, R93, R94, R122, R124, R127, R140 for promotion, R134, R137 for the end of a
drain, R143 for a tile with nothing in bounds, R145, R146, R147, R371 for aborts; the operands of a step are those that
`W.edge` reads, the scales and biases those of `W.epiInputs`. -/
def Obligations.ArraysComputeTiles : Prop :=
  ∀ (r : Region) (c : Cluster) (e : Env) (s : State) (k : Fin 64), k = clIdx r c →
    (s.atWork k = none → (∀ n, exec (.arrayStep r c n e) s = .next s ∧ exec (.chunkEnd r c n) s = .next s) ∧
      exec (.promotionRow r c e) s = .next s ∧ exec (.drainComplete r c) s = .next s) ∧
    (∀ (me : Region × SlotNo) (ch : Chart) (q : Position), s.atWork k = some (me, ch, q) →
      (∀ (n : Nat) (t : Tile), (s.clusters.get k).tile = some t →
        (t.full = true → exec (.arrayStep r c n e) s = .next s) ∧
        (∀ (u : W) (cause : BitVec 3), t.full = false →
          (⟨s.waitedCc k n, e⟩ : W).edge me ch (s.clusters.get k).mode.toNat k.1 t.index t.geom 0 t.k = (u, .fault cause) →
          ∃ x : State, exec (.arrayStep r c n e) s = .next x ∧ (x.clusters.get k).fault = some (t.index, cause) ∧
            (x.clusters.get k).tile = some t) ∧
        (∀ (u v : W) (as bs : List Entry), t.full = false →
          (⟨s.waitedCc k n, e⟩ : W).edge me ch (s.clusters.get k).mode.toNat k.1 t.index t.geom 0 t.k = (u, .got as) →
          u.edge me ch (s.clusters.get k).mode.toNat k.1 t.index t.geom 1 t.k = (v, .got bs) →
          bs.length = t.geom.nv → t.geom.nv ≤ 128 →
          ∃ (x : State) (y : Tile), exec (.arrayStep r c n e) s = .next x ∧ (x.clusters.get k).tile = some y ∧
            y.k = t.k + 1 ∧ y.index = t.index ∧ y.pair = t.pair ∧ y.block = t.block ∧
            (y.full = true ↔ (t.k + 1 - t.block) % 4096 = 0 ∨ t.k + 1 = min (t.block + 65536) t.kEnd) ∧
            (∀ (i j : Nat) (a b : Entry) (z : Cell), (keptEdge as)[i]? = some a → (keptEdge bs)[j]? = some b →
              t.cells[i * t.geom.keptCols + j]? = some z →
              y.cells[i * t.geom.keptCols + j]? =
                some (z.step (chartMode ch) ((chartMode ch).pairs.getD t.pair (1, 1)) a b)) ∧
            (∀ j, j ≠ k → x.clusters.get j = s.clusters.get j)) ∧
        (t.full = false ∨ (s.clusters.get k).promo.isSome = true → exec (.chunkEnd r c n) s = .next s) ∧
        (t.full = true → (s.clusters.get k).promo = none →
          ∃ x : State, exec (.chunkEnd r c n) s = .next x ∧ x.mem = s.mem ∧
            (x.clusters.get k).waitCc = (s.clusters.get k).waitCc + BitVec.ofNat 64 n ∧
            (x.clusters.get k).passCc = (s.clusters.get k).passCc + BitVec.ofNat 64 (chunkCc ch t.chunkSteps) ∧
            (t.lastChunk (chartMode ch) = true → (x.clusters.get k).tile = none) ∧
            (t.lastChunk (chartMode ch) = false → ∃ y : Tile, (x.clusters.get k).tile = some y ∧ y.full = false ∧
              y.index = t.index ∧ ∀ z ∈ y.cells, z.c48 = IVal.zero) ∧
            (chartMode ch = .strict → t.lastChunk (chartMode ch) = false → (x.clusters.get k).promo = none) ∧
            (chartMode ch ≠ .strict ∨ t.lastChunk (chartMode ch) = true → ∃ p : Promo,
              (x.clusters.get k).promo = some p ∧ p.row = 0 ∧ p.index = t.index ∧ p.shadow = t.cells.map (·.c48) ∧
              p.accs = t.cells.map (·.acc) ∧ p.last = t.lastChunk (chartMode ch)) ∧
            ∀ j, j ≠ k → x.clusters.get j = s.clusters.get j)) ∧
      (∀ (n i : Nat) (rest : List Nat) (g : TileGeom), (s.clusters.get k).tile = none →
        (s.clusters.get k).issued = i :: rest → g = tileGeom ch (s.inst me.1 me.2).bounds i q.quad →
        (s.mayTake me q.group i = false → exec (.arrayStep r c n e) s = .next s) ∧
        (s.mayTake me q.group i = true → g.mv ≠ 0 → g.nv ≠ 0 → chartMode ch ≠ .strict →
          (posSteps ch q g.k).1 < (posSteps ch q g.k).2 →
          ∃ x : State, exec (.arrayStep r c n e) s = .next x ∧ (x.clusters.get k).issued = rest ∧
            (x.clusters.get k).tile.map (·.index) = some i) ∧
        (s.mayTake me q.group i = true → g.mv = 0 ∨ g.nv = 0 →
          ∃ x : State, exec (.arrayStep r c n e) s = .next x ∧ (x.clusters.get k).issued = rest ∧
            (x.clusters.get k).tile = none ∧ (x.clusters.get k).lastIndex = BitVec.ofNat 64 i ∧
            (x.clusters.get k).tileStatus = mxStatus false false none ∧ (x.clusters.get k).outs = (s.clusters.get k).outs ∧
            x.mem = s.mem)) ∧
      (∀ p : Promo, (s.clusters.get k).promo = some p → p.row < 128 → p.geom.nv ≤ 128 →
        (s.clusters.get k).bank.length = p.geom.keptRows * p.geom.keptCols →
        (p.last = false → ∃ x : State, exec (.promotionRow r c e) s = .next x ∧ x.mem = s.mem ∧
          (x.clusters.get k).promo = (if p.row < 127 then some { p with row := p.row + 1 } else none) ∧
          (chartMode ch = .strict ∨ p.geom.mv < p.row → (x.clusters.get k).bank = (s.clusters.get k).bank) ∧
          (chartMode ch ≠ .strict → p.row ≤ p.geom.mv →
            (∀ j, j < p.geom.keptCols → (x.clusters.get k).bank[p.row * p.geom.keptCols + j]? =
              some (totalAdd ((s.clusters.get k).bank.getD (p.row * p.geom.keptCols + j) IVal.zero)
                (p.shadow.getD (p.row * p.geom.keptCols + j) IVal.zero))) ∧
            ∀ m, m < p.row * p.geom.keptCols ∨ (p.row + 1) * p.geom.keptCols ≤ m →
              (x.clusters.get k).bank[m]? = (s.clusters.get k).bank[m]?)) ∧
        (p.last = true → q.chainPos = 0 →
          (∀ next : Position, nextPosition ch q = some next →
            (p.row = 0 → s.outboxHolds next = true → exec (.promotionRow r c e) s = .next s) ∧
            ((p.row = 0 → s.outboxHolds next = false) →
              ∃ x : State, exec (.promotionRow r c e) s = .next x ∧ x.mem = s.mem ∧
                (x.clusters.get k).promo = (if p.row < 127 then some { p with row := p.row + 1 } else none) ∧
                (p.row = 127 → (x.clusters.get k).lastIndex = BitVec.ofNat 64 p.index ∧
                  (x.clusters.get k).tileStatus = mxStatus p.longsum p.subflush none))) ∧
          (nextPosition ch q = none →
            (p.row = 0 → (s.clusters.get k).drainRoom ch p = false → exec (.promotionRow r c e) s = .next s) ∧
            ((p.row = 0 → (s.clusters.get k).drainRoom ch p = true) → p.geom.mv ≤ p.row →
              ∃ (x : State) (d : Drain), exec (.promotionRow r c e) s = .next x ∧ x.mem = s.mem ∧
                (x.clusters.get k).drain = some d ∧
                d.rows = ((s.clusters.get k).drain.map (·.rows)).getD [] ++ [[]] ∧
                (x.clusters.get k).promo = (if p.row < 127 then some { p with row := p.row + 1 } else none)) ∧
            ∀ (u : W) (ins : List EpiIn) (cfg : EpiCfg), (p.row = 0 → (s.clusters.get k).drainRoom ch p = true) →
              p.row < p.geom.mv → (⟨s, e⟩ : W).epiInputs me ch k.1 p = (u, .got ins) →
              cfg = ⟨chartMode ch == .strict, modeFlush ch.mode, s.actOf ch, outFmtOf ch⟩ →
              ∃ (x : State) (d : Drain) (codes : List Nat), exec (.promotionRow r c e) s = .next x ∧
                (x.clusters.get k).drain = some d ∧
                d.rows = ((s.clusters.get k).drain.map (·.rows)).getD [] ++ [codes] ∧
                (x.clusters.get k).promo = (if p.row < 127 then some { p with row := p.row + 1 } else none) ∧
                ∀ (j : Nat) (i : EpiIn), ins[j]? = some i → j < p.geom.nv →
                  codes[j]? = some (if chartMode ch = .strict
                    then (epiElementStrict cfg i (p.accs.getD (p.row * p.geom.keptCols + j) 0).toNat).code
                    else (epiElement cfg i
                      (totalAdd ((s.clusters.get k).bank.getD (p.row * p.geom.keptCols + j) IVal.zero)
                        (p.shadow.getD (p.row * p.geom.keptCols + j) IVal.zero))).code))) ∧
        (p.running (s.clusters.get k).chainIn (q.chainPos != 0) = .wait → exec (.promotionRow r c e) s = .next s)) ∧
      (∀ d : Drain, (s.clusters.get k).drain = some d →
        (d.rows.length < 128 → exec (.drainComplete r c) s = .next s) ∧
        (128 ≤ d.rows.length → ∃ x : State, exec (.drainComplete r c) s = .next x ∧ x.mem = s.mem ∧
          (x.clusters.get k).drain = none ∧ (x.clusters.get k).lastIndex = BitVec.ofNat 64 d.index ∧
          (x.clusters.get k).tileStatus = mxStatus d.longsum d.subflush d.nf ∧
          (epiDest ch.epi = true → (x.clusters.get k).outs = (s.clusters.get k).outs ∧
            ∃ z : QEntry, (x.clusters.get k).queue = (s.clusters.get k).queue ++ [z] ∧ z.index = d.index ∧
              z.rows = d.rows ∧ z.aborted = false) ∧
          (epiDest ch.epi = false → (x.clusters.get k).queue = (s.clusters.get k).queue ∧
            (ch.writesBack 2 = true → ∃ z : OutSlot, (x.clusters.get k).outs = (s.clusters.get k).outs ++ [z] ∧
              z.arg = 2 ∧ z.index = d.index ∧ z.poisoned = false ∧ z.nf = d.nf))))) ∧
    (s.faultDue k = none ∨ s.alarmed = true ∨ s.clusterOn k = false → exec (.tileAbort r c e) s = .next s) ∧
    ∀ (me : Region × SlotNo) (ch : Chart) (q : Position) (i : Nat) (cause : BitVec 3),
      (s.clusters.get k).inst = some me → (s.clusters.get k).pos = some q → (s.inst me.1 me.2).chart = some ch →
      s.faultDue k = some (i, cause) → s.alarmed = false → s.clusterOn k = true → (s.clusters.get k).doneWith i = false →
      (∀ p ∈ abortReach ch s.pk.id.toNat q (cause != 5), p.chiplet = s.pk.id.toNat →
        fin 63 (8 * p.region + p.cluster) ≠ k) →
      ∃ x : State, exec (.tileAbort r c e) s = .next x ∧ (x.clusters.get k).tileStatus = mxAbort cause ∧
        (x.clusters.get k).lastIndex = BitVec.ofNat 64 i ∧ (∀ y ∈ (x.clusters.get k).tile, y.index ≠ i) ∧
        (∀ y ∈ (x.clusters.get k).promo, y.index ≠ i) ∧ (∀ y ∈ (x.clusters.get k).drain, y.index ≠ i) ∧
        (∀ y ∈ (x.clusters.get k).outs, y.index ≠ i) ∧
        (∀ g ∈ (x.inst me.1 me.2).groups, g.g = q.group → i ∈ g.lost ∧ g.ahead ≠ some i ∧ g.inPass ≠ some i) ∧
        ((s.inst me.1 me.2).st = .running → (s.inst me.1 me.2).faulting = 0 → (x.inst me.1 me.2).faulting = 4)

/-- R155-R163, R179-R183 for the chain, R361, R369, R371 for ends of runs, here and at the positions of an instance that
another chiplet owns, R366 for displacement. -/
def Obligations.PassesAndRunsEnd : Prop :=
  (∀ (r : Region) (c : Cluster) (n : Nat) (e : Env) (s : State) (k : Fin 64), k = clIdx r c →
    (s.chainAtWork k = none → exec (.vcPassStart r c n e) s = .next s ∧ exec (.vcPassEnd r c n) s = .next s) ∧
    ∀ (me : Region × SlotNo) (ch : Chart) (q : Position) (v : VProg), s.chainAtWork k = some (me, ch, q, v) →
      (∀ (x : QEntry) (rest : List QEntry), (s.clusters.get k).vc = none → (s.clusters.get k).queue = x :: rest →
        ((s.inputsIn me ch v k.1 x.index && (s.clusters.get k).outsFree x.slot) = false →
          exec (.vcPassStart r c n e) s = .next s) ∧
        (s.inputsIn me ch v k.1 x.index = true → (s.clusters.get k).outsFree x.slot = true →
          ∃ (t : State) (y : VcTile), exec (.vcPassStart r c n e) s = .next t ∧ (t.clusters.get k).queue = rest ∧
            (t.clusters.get k).vc = some y ∧ y.e = x ∧ y.pass = 0 ∧ y.started = true ∧ y.beats.length = 128 ∧
            (t.clusters.get k).vcWait = (s.clusters.get k).vcWait + BitVec.ofNat 64 n)) ∧
      ((s.clusters.get k).vc = none → (s.clusters.get k).queue = [] → exec (.vcPassStart r c n e) s = .next s) ∧
      ∀ y : VcTile, (s.clusters.get k).vc = some y →
        (y.started = true → exec (.vcPassStart r c n e) s = .next s) ∧
        (y.started = false → exec (.vcPassEnd r c n) s = .next s ∧
          ∃ (t : State) (z : VcTile), exec (.vcPassStart r c n e) s = .next t ∧
            (t.clusters.get k).queue = (s.clusters.get k).queue ∧ (t.clusters.get k).vc = some z ∧ z.e = y.e ∧
            z.pass = y.pass ∧ z.started = true) ∧
        (y.started = true → ∃ t : State, exec (.vcPassEnd r c n) s = .next t ∧ t.mem.lagoon = s.mem.lagoon ∧
          (t.clusters.get k).vcPasses = (s.clusters.get k).vcPasses + 1 ∧
          (t.clusters.get k).vcBusy = (s.clusters.get k).vcBusy + BitVec.ofNat 64 n ∧
          (y.pass + 1 < v.npass →
            (t.clusters.get k).vc = some { y with started := false, pass := y.pass + 1, beats := [] } ∧
            ∀ (i : Nat) (regs : List Beat), memWf s.mem.shoal = true → y.finish[i]? = some regs → testBit (v.carry.getD y.pass 0) 3 = true →
              memReadN t.mem.shoal (k.1 * 4194304 + spillAt v y.pass i 0) 512 =
                natToBytes 512 (regs.getD (field (v.carry.getD y.pass 0) 0 3) 0).toNat) ∧
          (v.npass ≤ y.pass + 1 → (t.clusters.get k).vc = none ∧
            (t.clusters.get k).vcLast = BitVec.ofNat 64 y.e.index ∧ (t.clusters.get k).vcStatus.getLsbD 31 = true ∧
            (y.e.aborted = true → (t.clusters.get k).outs = (s.clusters.get k).outs) ∧
            (y.e.aborted = false → v.out0En = true → ch.writesBack 2 = true →
              ∃ o ∈ (t.clusters.get k).outs, o.arg = 2 ∧ o.index = y.e.index ∧ o.slot = y.e.slot ∧
                o.poisoned = y.shoalBad)))) ∧
  (∀ (r : Region) (k : SlotNo) (far : Option FarEnd) (e : Env) (s : State) (c : Chart), (s.inst r k).chart = some c →
    (¬ RunOver s r k c far → exec (.instanceDrained r k far e) s = .next s) ∧
    (RunOver s r k c far →
      ∃ t : State, exec (.instanceDrained r k far e) s = .next t ∧
        (t.inst r k).st = (if (s.inst r k).stopPending = true then .stopped else .bound) ∧
        (t.inst r k).reason = (if (s.inst r k).stopPending = true then 2 else 1) ∧ (t.inst r k).stopPending = false ∧
        (ownSlot k = false → OwnerHears s t r k) ∧
        (ownSlot k = true → (t.inst r k).startRec = none ∧ (t.inst r k).stopRec = none ∧
          (t.inst r k).redo = (s.inst r k).redo ∧
          ∀ f : RecRef, (s.inst r k).startRec = some f → (s.inst r k).stopRec = none → (s.inst r k).statAddr = 0 →
            Retires e s t r f (if (s.inst r k).stopPending = true
              then statusWord codeStopped 4 2 ((s.joined r k c far).tiles.toNat % 2 ^ 40)
              else statusWord codeOk 1 1 ((s.joined r k c far).tiles.toNat % 2 ^ 40))))) ∧
  (∀ (r : Region) (k : SlotNo) (met : BitVec 4) (far : Option FarEnd) (lost : Bool) (e : Env) (s0 s : State) (c : Chart),
    s = (if met = 0 then s0 else s0.faultInst r k met) → (s.inst r k).chart = some c →
    (¬ FaultOver s r k c far lost → exec (.instanceFaulted r k met far lost e) s0 = .next s) ∧
    (FaultOver s r k c far lost → (∀ g ∈ (s.inst r k).groups, g.g < 512) →
      ∃ t : State, exec (.instanceFaulted r k met far lost e) s0 = .next t ∧ (t.inst r k).st = .faulted ∧
        (t.inst r k).reason = (if lost = true ∧ s.splitInst k c = true then 6 else (s.inst r k).faulting) ∧
        (t.inst r k).faulting = 0 ∧
        (∀ j ∈ s.boundClusters r k, (t.clusters.get j).issued = [] ∧ (t.clusters.get j).fault = none) ∧
        (ownSlot k = false → OwnerHears s t r k) ∧
        (ownSlot k = true → (t.inst r k).incomplete = (lost && s.splitInst k c) ∧ (t.inst r k).startRec = none ∧
          (t.inst r k).stopRec = none ∧
          ∀ n, n ∈ (t.inst r k).redo ↔
            ∃ g ∈ (s.joined r k c far).groups, n ∈ g.lost ∨ g.ahead = some n ∨ n ∈ g.redo))) ∧
  ∀ (r : Region) (e : Env) (s : State),
    ((∀ x ∈ (s.regions.get r).preemptHolds,
        ∃ y ∈ x.2.2.2, (s.inst y.1 y.2).st = .running ∨ (s.inst y.1 y.2).st = .draining) ∨
      s.regionActs r = false ∨ e.away = some true → exec (.preemptDisplace r none e) s = .next s) ∧
    (∀ (i : RingNo) (f : RecRef) (bs : List Byte) (xs : List (Region × SlotNo)),
      (s.regions.get r).preemptHolds.find? (fun x => x.2.2.2.all fun y =>
        (s.inst y.1 y.2).st != .running && (s.inst y.1 y.2).st != .draining) = some (i, f, bs, xs) →
      s.regionActs r = true → e.away ≠ some true → (r, recInst bs) ∉ xs →
      ∃ t : State, exec (.preemptDisplace r none e) s = .next t ∧ (t.ring r i).hold = none ∧ (t.ring r i).waits = [] ∧
        ∀ x ∈ xs, (s.inst x.1 x.2).st = .stopped ∨ (s.inst x.1 x.2).st = .faulted → Displaced s t x) ∧
    ∀ (f : Far) (k : SlotNo), k = s.farSlot f →
      ((s.inst r k).st = .stopped ∨ (s.inst r k).st = .faulted → s.alarmed = false →
        ∃ t : State, exec (.preemptDisplace r (some f) e) s = .next t ∧ Displaced s t (r, k) ∧ t.mem = s.mem ∧
          ∀ j, (t.clusters.get j).inst ≠ some (r, k)) ∧
      ((s.inst r k).st ≠ .stopped → (s.inst r k).st ≠ .faulted → exec (.preemptDisplace r (some f) e) s = .next s)
end

