-- ==== Sys2Proof/Laws/Memory.lean ====
section
/-! SUPPORT. Laws of the sparse byte memories: what a read gives after a write or a clear, and that every
operation keeps the canonical form. -/

namespace Sys2Proof.Machine

/-! ## Reads -/

@[simp] theorem memRead_nil (x : Nat) : memRead [] x = 0#8 := rfl

theorem memRead_below {lo : Nat} {m : Mem} (h : memWfFrom lo m = true) {x : Nat} (hx : x < lo) :
    memRead m x = 0#8 := by
  induction m generalizing lo with
  | nil => rfl
  | cons c m ih =>
    obtain ⟨a, b⟩ := c
    simp only [memWfFrom, Bool.and_eq_true, decide_eq_true_eq] at h
    have ha : x ≠ a := by omega
    simp only [memRead, ha, if_false]
    exact ih h.2 (by omega)

theorem memWfFrom_mono {lo lo' : Nat} {m : Mem} (h : memWfFrom lo m = true) (hl : lo' ≤ lo) :
    memWfFrom lo' m = true := by
  cases m with
  | nil => rfl
  | cons c m =>
    obtain ⟨a, b⟩ := c
    simp only [memWfFrom, Bool.and_eq_true, decide_eq_true_eq] at h ⊢
    exact ⟨⟨by omega, h.1.2⟩, h.2⟩

/-- The canonical form is kept by a write at or above its lower bound. -/
theorem memWfFrom_memWrite {lo : Nat} {m : Mem} (h : memWfFrom lo m = true) {x : Nat} (hx : lo ≤ x) (v : Byte) :
    memWfFrom lo (memWrite m x v) = true := by
  induction m generalizing lo with
  | nil =>
    by_cases hv : v = 0#8 <;> simp [memWrite, memWfFrom, hv, hx]
  | cons c m ih =>
    obtain ⟨a, b⟩ := c
    simp only [memWfFrom, Bool.and_eq_true, decide_eq_true_eq] at h
    obtain ⟨⟨h1, h2⟩, h3⟩ := h
    by_cases hlt : x < a
    · by_cases hv : v = 0#8
      · simp [memWrite, hlt, hv, memWfFrom, h1, h2, h3]
      · have : x + 1 ≤ a := hlt
        simp [memWrite, hlt, hv, memWfFrom, hx, h2, h3, this]
    · by_cases he : x = a
      · subst he
        by_cases hv : v = 0#8
        · simp only [memWrite, Nat.lt_irrefl, if_false, if_true, hv]
          exact memWfFrom_mono h3 (by omega)
        · simp [memWrite, hv, memWfFrom, hx, h3]
      · simp only [memWrite, hlt, he, if_false, memWfFrom, Bool.and_eq_true, decide_eq_true_eq]
        exact ⟨⟨h1, h2⟩, ih h3 (by omega)⟩

/-- A write keeps the canonical form. -/
theorem memWf_memWrite {m : Mem} (h : memWf m = true) (x : Nat) (v : Byte) : memWf (memWrite m x v) = true :=
  memWfFrom_memWrite h (Nat.zero_le x) v

/-- A write of bytes keeps the canonical form. -/
theorem memWf_memWriteN {m : Mem} (h : memWf m = true) (x : Nat) (bs : List Byte) :
    memWf (memWriteN m x bs) = true := by
  induction bs generalizing m x with
  | nil => exact h
  | cons b bs ih => exact ih (memWf_memWrite h x b) (x + 1)

theorem memWfFrom_filter {lo : Nat} {m : Mem} (h : memWfFrom lo m = true) (p : Host.Cell → Bool) :
    memWfFrom lo (m.filter p) = true := by
  induction m generalizing lo with
  | nil => rfl
  | cons c m ih =>
    obtain ⟨a, b⟩ := c
    simp only [memWfFrom, Bool.and_eq_true, decide_eq_true_eq] at h
    obtain ⟨⟨h1, h2⟩, h3⟩ := h
    by_cases hp : p (a, b) = true
    · rw [List.filter_cons_of_pos hp]
      simp only [memWfFrom, Bool.and_eq_true, decide_eq_true_eq]
      exact ⟨⟨h1, h2⟩, ih h3⟩
    · rw [List.filter_cons_of_neg hp]
      exact memWfFrom_mono (ih h3) (by omega)

/-- A clear keeps the canonical form. -/
theorem memWf_memClear {m : Mem} (h : memWf m = true) (lo n : Nat) : memWf (memClear m lo n) = true :=
  memWfFrom_filter h _

theorem memWf_nil : memWf [] = true := rfl

theorem memRead_memWrite_from {lo : Nat} {m : Mem} (h : memWfFrom lo m = true) (x : Nat) (v : Byte) (y : Nat) :
    memRead (memWrite m x v) y = if y = x then v else memRead m y := by
  induction m generalizing lo with
  | nil =>
    by_cases hv : v = 0#8 <;> by_cases hy : y = x <;> simp [memWrite, memRead, hv, hy]
  | cons c m ih =>
    obtain ⟨a, b⟩ := c
    simp only [memWfFrom, Bool.and_eq_true, decide_eq_true_eq] at h
    obtain ⟨⟨-, -⟩, h3⟩ := h
    by_cases hlt : x < a
    · have hxa : x ≠ a := by omega
      by_cases hv : v = 0#8
      · by_cases hy : y = x
        · subst hy
          have := memRead_below h3 (x := y) (by omega)
          simp [memWrite, hlt, hv, memRead, hxa, this]
        · simp [memWrite, hlt, hv, hy]
      · by_cases hy : y = x <;> simp [memWrite, hlt, hv, memRead, hy]
    · by_cases he : x = a
      · subst he
        by_cases hv : v = 0#8
        · by_cases hy : y = x
          · subst hy
            simp [memWrite, hv, memRead_below h3 (x := y) (by omega)]
          · simp [memWrite, hv, memRead, hy]
        · by_cases hy : y = x <;> simp [memWrite, hv, memRead, hy]
      · by_cases hya : y = a
        · subst hya
          have : y ≠ x := fun e => he e.symm
          simp [memWrite, hlt, he, memRead, this]
        · simp [memWrite, hlt, he, memRead, hya, ih h3]

/-- A read after a write: the byte written at its address, every other byte as before. -/
theorem memRead_memWrite {m : Mem} (h : memWf m = true) (x : Nat) (v : Byte) (y : Nat) :
    memRead (memWrite m x v) y = if y = x then v else memRead m y :=
  memRead_memWrite_from h x v y

/-- A read below or above the bytes stored gives what it gave before. -/
theorem memRead_memWriteN_outside {m : Mem} (h : memWf m = true) (x : Nat) (bs : List Byte) {y : Nat}
    (hy : y < x ∨ x + bs.length ≤ y) : memRead (memWriteN m x bs) y = memRead m y := by
  induction bs generalizing m x with
  | nil => rfl
  | cons b bs ih =>
    simp only [List.length_cons] at hy
    have hne : y ≠ x := by omega
    rw [memWriteN, ih (memWf_memWrite h x b) (x + 1) (by omega), memRead_memWrite h, if_neg hne]

/-- A read inside the bytes stored gives the byte stored there. -/
theorem memRead_memWriteN_inside {m : Mem} (h : memWf m = true) (x : Nat) (bs : List Byte) (i : Nat)
    (hi : i < bs.length) : memRead (memWriteN m x bs) (x + i) = bs[i] := by
  induction bs generalizing m x i with
  | nil => exact absurd hi (by simp)
  | cons b bs ih =>
    cases i with
    | zero =>
      rw [memWriteN, memRead_memWriteN_outside (memWf_memWrite h x b) (x + 1) bs (by omega), memRead_memWrite h]
      simp
    | succ i =>
      have := ih (memWf_memWrite h x b) (x + 1) i (by simpa using hi)
      rw [memWriteN, show x + (i + 1) = x + 1 + i by omega, this]
      rfl

@[simp] theorem memReadN_length (m : Mem) (a n : Nat) : (memReadN m a n).length = n := by
  induction n generalizing a with
  | zero => rfl
  | succ n ih => simp [memReadN, ih]

/-- The bytes stored are the bytes read back. -/
theorem memReadN_memWriteN {m : Mem} (h : memWf m = true) (x : Nat) (bs : List Byte) :
    memReadN (memWriteN m x bs) x bs.length = bs := by
  induction bs generalizing m x with
  | nil => rfl
  | cons b bs ih =>
    have h1 := memRead_memWriteN_inside h x (b :: bs) 0 (by simp)
    simp only [Nat.add_zero, List.getElem_cons_zero] at h1
    simp only [List.length_cons, memReadN]
    rw [h1]
    exact congrArg _ (ih (memWf_memWrite h x b) (x + 1))

theorem memRead_filter_outside {m : Mem} (p : Host.Cell → Bool) {y : Nat} (hp : ∀ b, p (y, b) = true) :
    memRead (m.filter p) y = memRead m y := by
  induction m with
  | nil => rfl
  | cons c m ih =>
    obtain ⟨a, b⟩ := c
    by_cases hc : p (a, b) = true
    · rw [List.filter_cons_of_pos hc]; simp [memRead, ih]
    · rw [List.filter_cons_of_neg hc]
      have : y ≠ a := by rintro rfl; exact hc (hp b)
      simp [memRead, this, ih]

theorem memRead_filter_inside {m : Mem} (p : Host.Cell → Bool) {y : Nat} (hp : ∀ b, p (y, b) = false) :
    memRead (m.filter p) y = 0#8 := by
  induction m with
  | nil => rfl
  | cons c m ih =>
    obtain ⟨a, b⟩ := c
    by_cases hc : p (a, b) = true
    · rw [List.filter_cons_of_pos hc]
      have : y ≠ a := by rintro rfl; simp [hp b] at hc
      simp [memRead, this, ih]
    · rw [List.filter_cons_of_neg hc]; exact ih

/-- A clear reads as zero inside its range and leaves every other byte. -/
theorem memRead_memClear (m : Mem) (lo n y : Nat) :
    memRead (memClear m lo n) y = if lo ≤ y ∧ y < lo + n then 0#8 else memRead m y := by
  by_cases h : lo ≤ y ∧ y < lo + n
  · rw [if_pos h]
    exact memRead_filter_inside _ (fun b => by simp; omega)
  · rw [if_neg h]
    exact memRead_filter_outside _ (fun b => by simp; omega)

end Sys2Proof.Machine
end

