-- ==== Sys2Proof/Laws/State.lean ====
section
/-! SUPPORT. What each named update of the state changes and what it leaves: one lemma per field per
update, so that no proof unfolds a record update. Each is true by rfl; the parentheses keep it a rewrite, so that
the kernel never evaluates the states between. -/

namespace Sys2Proof.Machine

/-! ## Vectors -/

/-- An entry after an update: the entry updated, every other as before. -/
theorem vmod_get {α : Type} {n : Nat} (v : Vector α n) (i j : Fin n) (f : α → α) :
    (vmod v i f).get j = if j = i then f (v.get j) else v.get j := by
  have hg : ∀ w : Vector α n, w.get j = w[j.1] := fun _ => rfl
  rw [hg, hg, vmod, Vector.getElem_set]
  by_cases h : j = i
  · subst h; simp [hg]
  · have : (i : Nat) ≠ j := fun e => h (Fin.ext e.symm)
    simp [h, this]

@[simp] theorem vmod_get_self {α : Type} {n : Nat} (v : Vector α n) (i : Fin n) (f : α → α) :
    (vmod v i f).get i = f (v.get i) := by simp [vmod_get]

theorem vmod_get_ne {α : Type} {n : Nat} (v : Vector α n) {i j : Fin n} (f : α → α) (h : j ≠ i) :
    (vmod v i f).get j = v.get j := by simp [vmod_get, h]

/-! ## State.onRegion -/

@[simp] theorem State.onRegion_pk (s : State) (r : Region) (f : RegionSt → RegionSt) :
    (s.onRegion r f).pk = s.pk := (rfl)
@[simp] theorem State.onRegion_site (s : State) (r : Region) (f : RegionSt → RegionSt) :
    (s.onRegion r f).site = s.site := (rfl)
@[simp] theorem State.onRegion_link (s : State) (r : Region) (f : RegionSt → RegionSt) :
    (s.onRegion r f).link = s.link := (rfl)
@[simp] theorem State.onRegion_proto (s : State) (r : Region) (f : RegionSt → RegionSt) :
    (s.onRegion r f).proto = s.proto := (rfl)
@[simp] theorem State.onRegion_mem (s : State) (r : Region) (f : RegionSt → RegionSt) :
    (s.onRegion r f).mem = s.mem := (rfl)
@[simp] theorem State.onRegion_regions (s : State) (r : Region) (f : RegionSt → RegionSt) :
    (s.onRegion r f).regions = vmod s.regions r f := (rfl)
@[simp] theorem State.onRegion_clusters (s : State) (r : Region) (f : RegionSt → RegionSt) :
    (s.onRegion r f).clusters = s.clusters := (rfl)
@[simp] theorem State.onRegion_power (s : State) (r : Region) (f : RegionSt → RegionSt) :
    (s.onRegion r f).power = s.power := (rfl)
@[simp] theorem State.onRegion_ao (s : State) (r : Region) (f : RegionSt → RegionSt) :
    (s.onRegion r f).ao = s.ao := (rfl)
@[simp] theorem State.onRegion_sec (s : State) (r : Region) (f : RegionSt → RegionSt) :
    (s.onRegion r f).sec = s.sec := (rfl)
@[simp] theorem State.onRegion_vault (s : State) (r : Region) (f : RegionSt → RegionSt) :
    (s.onRegion r f).vault = s.vault := (rfl)
@[simp] theorem State.onRegion_life (s : State) (r : Region) (f : RegionSt → RegionSt) :
    (s.onRegion r f).life = s.life := (rfl)
@[simp] theorem State.onRegion_outbox (s : State) (r : Region) (f : RegionSt → RegionSt) :
    (s.onRegion r f).outbox = s.outbox := (rfl)
@[simp] theorem State.onRegion_freeCtr (s : State) (r : Region) (f : RegionSt → RegionSt) :
    (s.onRegion r f).freeCtr = s.freeCtr := (rfl)
@[simp] theorem State.onRegion_pending (s : State) (r : Region) (f : RegionSt → RegionSt) :
    (s.onRegion r f).pending = s.pending := (rfl)

/-! ## State.onCluster -/

@[simp] theorem State.onCluster_pk (s : State) (k : Fin 64) (f : ClusterSt → ClusterSt) :
    (s.onCluster k f).pk = s.pk := (rfl)
@[simp] theorem State.onCluster_site (s : State) (k : Fin 64) (f : ClusterSt → ClusterSt) :
    (s.onCluster k f).site = s.site := (rfl)
@[simp] theorem State.onCluster_link (s : State) (k : Fin 64) (f : ClusterSt → ClusterSt) :
    (s.onCluster k f).link = s.link := (rfl)
@[simp] theorem State.onCluster_proto (s : State) (k : Fin 64) (f : ClusterSt → ClusterSt) :
    (s.onCluster k f).proto = s.proto := (rfl)
@[simp] theorem State.onCluster_mem (s : State) (k : Fin 64) (f : ClusterSt → ClusterSt) :
    (s.onCluster k f).mem = s.mem := (rfl)
@[simp] theorem State.onCluster_regions (s : State) (k : Fin 64) (f : ClusterSt → ClusterSt) :
    (s.onCluster k f).regions = s.regions := (rfl)
@[simp] theorem State.onCluster_clusters (s : State) (k : Fin 64) (f : ClusterSt → ClusterSt) :
    (s.onCluster k f).clusters = vmod s.clusters k f := (rfl)
@[simp] theorem State.onCluster_power (s : State) (k : Fin 64) (f : ClusterSt → ClusterSt) :
    (s.onCluster k f).power = s.power := (rfl)
@[simp] theorem State.onCluster_ao (s : State) (k : Fin 64) (f : ClusterSt → ClusterSt) :
    (s.onCluster k f).ao = s.ao := (rfl)
@[simp] theorem State.onCluster_sec (s : State) (k : Fin 64) (f : ClusterSt → ClusterSt) :
    (s.onCluster k f).sec = s.sec := (rfl)
@[simp] theorem State.onCluster_vault (s : State) (k : Fin 64) (f : ClusterSt → ClusterSt) :
    (s.onCluster k f).vault = s.vault := (rfl)
@[simp] theorem State.onCluster_life (s : State) (k : Fin 64) (f : ClusterSt → ClusterSt) :
    (s.onCluster k f).life = s.life := (rfl)
@[simp] theorem State.onCluster_outbox (s : State) (k : Fin 64) (f : ClusterSt → ClusterSt) :
    (s.onCluster k f).outbox = s.outbox := (rfl)
@[simp] theorem State.onCluster_freeCtr (s : State) (k : Fin 64) (f : ClusterSt → ClusterSt) :
    (s.onCluster k f).freeCtr = s.freeCtr := (rfl)
@[simp] theorem State.onCluster_pending (s : State) (k : Fin 64) (f : ClusterSt → ClusterSt) :
    (s.onCluster k f).pending = s.pending := (rfl)

/-! ## State.onRing -/

@[simp] theorem State.onRing_pk (s : State) (r : Region) (i : RingNo) (f : Ring → Ring) :
    (s.onRing r i f).pk = s.pk := (rfl)
@[simp] theorem State.onRing_site (s : State) (r : Region) (i : RingNo) (f : Ring → Ring) :
    (s.onRing r i f).site = s.site := (rfl)
@[simp] theorem State.onRing_link (s : State) (r : Region) (i : RingNo) (f : Ring → Ring) :
    (s.onRing r i f).link = s.link := (rfl)
@[simp] theorem State.onRing_proto (s : State) (r : Region) (i : RingNo) (f : Ring → Ring) :
    (s.onRing r i f).proto = s.proto := (rfl)
@[simp] theorem State.onRing_mem (s : State) (r : Region) (i : RingNo) (f : Ring → Ring) :
    (s.onRing r i f).mem = s.mem := (rfl)
@[simp] theorem State.onRing_regions (s : State) (r : Region) (i : RingNo) (f : Ring → Ring) :
    (s.onRing r i f).regions = vmod s.regions r fun x => { x with rings := vmod x.rings i f } := (rfl)
@[simp] theorem State.onRing_clusters (s : State) (r : Region) (i : RingNo) (f : Ring → Ring) :
    (s.onRing r i f).clusters = s.clusters := (rfl)
@[simp] theorem State.onRing_power (s : State) (r : Region) (i : RingNo) (f : Ring → Ring) :
    (s.onRing r i f).power = s.power := (rfl)
@[simp] theorem State.onRing_ao (s : State) (r : Region) (i : RingNo) (f : Ring → Ring) :
    (s.onRing r i f).ao = s.ao := (rfl)
@[simp] theorem State.onRing_sec (s : State) (r : Region) (i : RingNo) (f : Ring → Ring) :
    (s.onRing r i f).sec = s.sec := (rfl)
@[simp] theorem State.onRing_vault (s : State) (r : Region) (i : RingNo) (f : Ring → Ring) :
    (s.onRing r i f).vault = s.vault := (rfl)
@[simp] theorem State.onRing_life (s : State) (r : Region) (i : RingNo) (f : Ring → Ring) :
    (s.onRing r i f).life = s.life := (rfl)
@[simp] theorem State.onRing_outbox (s : State) (r : Region) (i : RingNo) (f : Ring → Ring) :
    (s.onRing r i f).outbox = s.outbox := (rfl)
@[simp] theorem State.onRing_freeCtr (s : State) (r : Region) (i : RingNo) (f : Ring → Ring) :
    (s.onRing r i f).freeCtr = s.freeCtr := (rfl)
@[simp] theorem State.onRing_pending (s : State) (r : Region) (i : RingNo) (f : Ring → Ring) :
    (s.onRing r i f).pending = s.pending := (rfl)

/-! ## State.onInst -/

@[simp] theorem State.onInst_pk (s : State) (r : Region) (k : SlotNo) (f : Inst → Inst) :
    (s.onInst r k f).pk = s.pk := (rfl)
@[simp] theorem State.onInst_site (s : State) (r : Region) (k : SlotNo) (f : Inst → Inst) :
    (s.onInst r k f).site = s.site := (rfl)
@[simp] theorem State.onInst_link (s : State) (r : Region) (k : SlotNo) (f : Inst → Inst) :
    (s.onInst r k f).link = s.link := (rfl)
@[simp] theorem State.onInst_proto (s : State) (r : Region) (k : SlotNo) (f : Inst → Inst) :
    (s.onInst r k f).proto = s.proto := (rfl)
@[simp] theorem State.onInst_mem (s : State) (r : Region) (k : SlotNo) (f : Inst → Inst) :
    (s.onInst r k f).mem = s.mem := (rfl)
@[simp] theorem State.onInst_regions (s : State) (r : Region) (k : SlotNo) (f : Inst → Inst) :
    (s.onInst r k f).regions = vmod s.regions r fun x => { x with insts := vmod x.insts k f } := (rfl)
@[simp] theorem State.onInst_clusters (s : State) (r : Region) (k : SlotNo) (f : Inst → Inst) :
    (s.onInst r k f).clusters = s.clusters := (rfl)
@[simp] theorem State.onInst_power (s : State) (r : Region) (k : SlotNo) (f : Inst → Inst) :
    (s.onInst r k f).power = s.power := (rfl)
@[simp] theorem State.onInst_ao (s : State) (r : Region) (k : SlotNo) (f : Inst → Inst) :
    (s.onInst r k f).ao = s.ao := (rfl)
@[simp] theorem State.onInst_sec (s : State) (r : Region) (k : SlotNo) (f : Inst → Inst) :
    (s.onInst r k f).sec = s.sec := (rfl)
@[simp] theorem State.onInst_vault (s : State) (r : Region) (k : SlotNo) (f : Inst → Inst) :
    (s.onInst r k f).vault = s.vault := (rfl)
@[simp] theorem State.onInst_life (s : State) (r : Region) (k : SlotNo) (f : Inst → Inst) :
    (s.onInst r k f).life = s.life := (rfl)
@[simp] theorem State.onInst_outbox (s : State) (r : Region) (k : SlotNo) (f : Inst → Inst) :
    (s.onInst r k f).outbox = s.outbox := (rfl)
@[simp] theorem State.onInst_freeCtr (s : State) (r : Region) (k : SlotNo) (f : Inst → Inst) :
    (s.onInst r k f).freeCtr = s.freeCtr := (rfl)
@[simp] theorem State.onInst_pending (s : State) (r : Region) (k : SlotNo) (f : Inst → Inst) :
    (s.onInst r k f).pending = s.pending := (rfl)

/-! ## State.onFerry -/

@[simp] theorem State.onFerry_pk (s : State) (r : Region) (f : RegFerry → RegFerry) :
    (s.onFerry r f).pk = s.pk := (rfl)
@[simp] theorem State.onFerry_site (s : State) (r : Region) (f : RegFerry → RegFerry) :
    (s.onFerry r f).site = s.site := (rfl)
@[simp] theorem State.onFerry_link (s : State) (r : Region) (f : RegFerry → RegFerry) :
    (s.onFerry r f).link = s.link := (rfl)
@[simp] theorem State.onFerry_proto (s : State) (r : Region) (f : RegFerry → RegFerry) :
    (s.onFerry r f).proto = s.proto := (rfl)
@[simp] theorem State.onFerry_mem (s : State) (r : Region) (f : RegFerry → RegFerry) :
    (s.onFerry r f).mem = s.mem := (rfl)
@[simp] theorem State.onFerry_regions (s : State) (r : Region) (f : RegFerry → RegFerry) :
    (s.onFerry r f).regions = vmod s.regions r fun x => { x with fy := f x.fy } := (rfl)
@[simp] theorem State.onFerry_clusters (s : State) (r : Region) (f : RegFerry → RegFerry) :
    (s.onFerry r f).clusters = s.clusters := (rfl)
@[simp] theorem State.onFerry_power (s : State) (r : Region) (f : RegFerry → RegFerry) :
    (s.onFerry r f).power = s.power := (rfl)
@[simp] theorem State.onFerry_ao (s : State) (r : Region) (f : RegFerry → RegFerry) :
    (s.onFerry r f).ao = s.ao := (rfl)
@[simp] theorem State.onFerry_sec (s : State) (r : Region) (f : RegFerry → RegFerry) :
    (s.onFerry r f).sec = s.sec := (rfl)
@[simp] theorem State.onFerry_vault (s : State) (r : Region) (f : RegFerry → RegFerry) :
    (s.onFerry r f).vault = s.vault := (rfl)
@[simp] theorem State.onFerry_life (s : State) (r : Region) (f : RegFerry → RegFerry) :
    (s.onFerry r f).life = s.life := (rfl)
@[simp] theorem State.onFerry_outbox (s : State) (r : Region) (f : RegFerry → RegFerry) :
    (s.onFerry r f).outbox = s.outbox := (rfl)
@[simp] theorem State.onFerry_freeCtr (s : State) (r : Region) (f : RegFerry → RegFerry) :
    (s.onFerry r f).freeCtr = s.freeCtr := (rfl)
@[simp] theorem State.onFerry_pending (s : State) (r : Region) (f : RegFerry → RegFerry) :
    (s.onFerry r f).pending = s.pending := (rfl)

/-! ## State.onBundle -/

@[simp] theorem State.onBundle_pk (s : State) (b : BundleNo) (f : Bundle → Bundle) :
    (s.onBundle b f).pk = s.pk := (rfl)
@[simp] theorem State.onBundle_site (s : State) (b : BundleNo) (f : Bundle → Bundle) :
    (s.onBundle b f).site = s.site := (rfl)
@[simp] theorem State.onBundle_link (s : State) (b : BundleNo) (f : Bundle → Bundle) :
    (s.onBundle b f).link = { s.link with bundles := vmod s.link.bundles b f } := (rfl)
@[simp] theorem State.onBundle_proto (s : State) (b : BundleNo) (f : Bundle → Bundle) :
    (s.onBundle b f).proto = s.proto := (rfl)
@[simp] theorem State.onBundle_mem (s : State) (b : BundleNo) (f : Bundle → Bundle) :
    (s.onBundle b f).mem = s.mem := (rfl)
@[simp] theorem State.onBundle_regions (s : State) (b : BundleNo) (f : Bundle → Bundle) :
    (s.onBundle b f).regions = s.regions := (rfl)
@[simp] theorem State.onBundle_clusters (s : State) (b : BundleNo) (f : Bundle → Bundle) :
    (s.onBundle b f).clusters = s.clusters := (rfl)
@[simp] theorem State.onBundle_power (s : State) (b : BundleNo) (f : Bundle → Bundle) :
    (s.onBundle b f).power = s.power := (rfl)
@[simp] theorem State.onBundle_ao (s : State) (b : BundleNo) (f : Bundle → Bundle) :
    (s.onBundle b f).ao = s.ao := (rfl)
@[simp] theorem State.onBundle_sec (s : State) (b : BundleNo) (f : Bundle → Bundle) :
    (s.onBundle b f).sec = s.sec := (rfl)
@[simp] theorem State.onBundle_vault (s : State) (b : BundleNo) (f : Bundle → Bundle) :
    (s.onBundle b f).vault = s.vault := (rfl)
@[simp] theorem State.onBundle_life (s : State) (b : BundleNo) (f : Bundle → Bundle) :
    (s.onBundle b f).life = s.life := (rfl)
@[simp] theorem State.onBundle_outbox (s : State) (b : BundleNo) (f : Bundle → Bundle) :
    (s.onBundle b f).outbox = s.outbox := (rfl)
@[simp] theorem State.onBundle_freeCtr (s : State) (b : BundleNo) (f : Bundle → Bundle) :
    (s.onBundle b f).freeCtr = s.freeCtr := (rfl)
@[simp] theorem State.onBundle_pending (s : State) (b : BundleNo) (f : Bundle → Bundle) :
    (s.onBundle b f).pending = s.pending := (rfl)

/-! ## State.onPort -/

@[simp] theorem State.onPort_pk (s : State) (p : Port) (f : PortSt → PortSt) :
    (s.onPort p f).pk = s.pk := (rfl)
@[simp] theorem State.onPort_site (s : State) (p : Port) (f : PortSt → PortSt) :
    (s.onPort p f).site = s.site := (rfl)
@[simp] theorem State.onPort_link (s : State) (p : Port) (f : PortSt → PortSt) :
    (s.onPort p f).link = { s.link with ports := vmod s.link.ports p f } := (rfl)
@[simp] theorem State.onPort_proto (s : State) (p : Port) (f : PortSt → PortSt) :
    (s.onPort p f).proto = s.proto := (rfl)
@[simp] theorem State.onPort_mem (s : State) (p : Port) (f : PortSt → PortSt) :
    (s.onPort p f).mem = s.mem := (rfl)
@[simp] theorem State.onPort_regions (s : State) (p : Port) (f : PortSt → PortSt) :
    (s.onPort p f).regions = s.regions := (rfl)
@[simp] theorem State.onPort_clusters (s : State) (p : Port) (f : PortSt → PortSt) :
    (s.onPort p f).clusters = s.clusters := (rfl)
@[simp] theorem State.onPort_power (s : State) (p : Port) (f : PortSt → PortSt) :
    (s.onPort p f).power = s.power := (rfl)
@[simp] theorem State.onPort_ao (s : State) (p : Port) (f : PortSt → PortSt) :
    (s.onPort p f).ao = s.ao := (rfl)
@[simp] theorem State.onPort_sec (s : State) (p : Port) (f : PortSt → PortSt) :
    (s.onPort p f).sec = s.sec := (rfl)
@[simp] theorem State.onPort_vault (s : State) (p : Port) (f : PortSt → PortSt) :
    (s.onPort p f).vault = s.vault := (rfl)
@[simp] theorem State.onPort_life (s : State) (p : Port) (f : PortSt → PortSt) :
    (s.onPort p f).life = s.life := (rfl)
@[simp] theorem State.onPort_outbox (s : State) (p : Port) (f : PortSt → PortSt) :
    (s.onPort p f).outbox = s.outbox := (rfl)
@[simp] theorem State.onPort_freeCtr (s : State) (p : Port) (f : PortSt → PortSt) :
    (s.onPort p f).freeCtr = s.freeCtr := (rfl)
@[simp] theorem State.onPort_pending (s : State) (p : Port) (f : PortSt → PortSt) :
    (s.onPort p f).pending = s.pending := (rfl)

/-! ## State.onPower -/

@[simp] theorem State.onPower_pk (s : State) (f : PowerSt → PowerSt) :
    (s.onPower f).pk = s.pk := (rfl)
@[simp] theorem State.onPower_site (s : State) (f : PowerSt → PowerSt) :
    (s.onPower f).site = s.site := (rfl)
@[simp] theorem State.onPower_link (s : State) (f : PowerSt → PowerSt) :
    (s.onPower f).link = s.link := (rfl)
@[simp] theorem State.onPower_proto (s : State) (f : PowerSt → PowerSt) :
    (s.onPower f).proto = s.proto := (rfl)
@[simp] theorem State.onPower_mem (s : State) (f : PowerSt → PowerSt) :
    (s.onPower f).mem = s.mem := (rfl)
@[simp] theorem State.onPower_regions (s : State) (f : PowerSt → PowerSt) :
    (s.onPower f).regions = s.regions := (rfl)
@[simp] theorem State.onPower_clusters (s : State) (f : PowerSt → PowerSt) :
    (s.onPower f).clusters = s.clusters := (rfl)
@[simp] theorem State.onPower_power (s : State) (f : PowerSt → PowerSt) :
    (s.onPower f).power = f s.power := (rfl)
@[simp] theorem State.onPower_ao (s : State) (f : PowerSt → PowerSt) :
    (s.onPower f).ao = s.ao := (rfl)
@[simp] theorem State.onPower_sec (s : State) (f : PowerSt → PowerSt) :
    (s.onPower f).sec = s.sec := (rfl)
@[simp] theorem State.onPower_vault (s : State) (f : PowerSt → PowerSt) :
    (s.onPower f).vault = s.vault := (rfl)
@[simp] theorem State.onPower_life (s : State) (f : PowerSt → PowerSt) :
    (s.onPower f).life = s.life := (rfl)
@[simp] theorem State.onPower_outbox (s : State) (f : PowerSt → PowerSt) :
    (s.onPower f).outbox = s.outbox := (rfl)
@[simp] theorem State.onPower_freeCtr (s : State) (f : PowerSt → PowerSt) :
    (s.onPower f).freeCtr = s.freeCtr := (rfl)
@[simp] theorem State.onPower_pending (s : State) (f : PowerSt → PowerSt) :
    (s.onPower f).pending = s.pending := (rfl)

/-! ## State.onSec -/

@[simp] theorem State.onSec_pk (s : State) (f : Sec → Sec) :
    (s.onSec f).pk = s.pk := (rfl)
@[simp] theorem State.onSec_site (s : State) (f : Sec → Sec) :
    (s.onSec f).site = s.site := (rfl)
@[simp] theorem State.onSec_link (s : State) (f : Sec → Sec) :
    (s.onSec f).link = s.link := (rfl)
@[simp] theorem State.onSec_proto (s : State) (f : Sec → Sec) :
    (s.onSec f).proto = s.proto := (rfl)
@[simp] theorem State.onSec_mem (s : State) (f : Sec → Sec) :
    (s.onSec f).mem = s.mem := (rfl)
@[simp] theorem State.onSec_regions (s : State) (f : Sec → Sec) :
    (s.onSec f).regions = s.regions := (rfl)
@[simp] theorem State.onSec_clusters (s : State) (f : Sec → Sec) :
    (s.onSec f).clusters = s.clusters := (rfl)
@[simp] theorem State.onSec_power (s : State) (f : Sec → Sec) :
    (s.onSec f).power = s.power := (rfl)
@[simp] theorem State.onSec_ao (s : State) (f : Sec → Sec) :
    (s.onSec f).ao = s.ao := (rfl)
@[simp] theorem State.onSec_sec (s : State) (f : Sec → Sec) :
    (s.onSec f).sec = f s.sec := (rfl)
@[simp] theorem State.onSec_vault (s : State) (f : Sec → Sec) :
    (s.onSec f).vault = s.vault := (rfl)
@[simp] theorem State.onSec_life (s : State) (f : Sec → Sec) :
    (s.onSec f).life = s.life := (rfl)
@[simp] theorem State.onSec_outbox (s : State) (f : Sec → Sec) :
    (s.onSec f).outbox = s.outbox := (rfl)
@[simp] theorem State.onSec_freeCtr (s : State) (f : Sec → Sec) :
    (s.onSec f).freeCtr = s.freeCtr := (rfl)
@[simp] theorem State.onSec_pending (s : State) (f : Sec → Sec) :
    (s.onSec f).pending = s.pending := (rfl)

/-! ## State.onVault -/

@[simp] theorem State.onVault_pk (s : State) (f : Vault → Vault) :
    (s.onVault f).pk = s.pk := (rfl)
@[simp] theorem State.onVault_site (s : State) (f : Vault → Vault) :
    (s.onVault f).site = s.site := (rfl)
@[simp] theorem State.onVault_link (s : State) (f : Vault → Vault) :
    (s.onVault f).link = s.link := (rfl)
@[simp] theorem State.onVault_proto (s : State) (f : Vault → Vault) :
    (s.onVault f).proto = s.proto := (rfl)
@[simp] theorem State.onVault_mem (s : State) (f : Vault → Vault) :
    (s.onVault f).mem = s.mem := (rfl)
@[simp] theorem State.onVault_regions (s : State) (f : Vault → Vault) :
    (s.onVault f).regions = s.regions := (rfl)
@[simp] theorem State.onVault_clusters (s : State) (f : Vault → Vault) :
    (s.onVault f).clusters = s.clusters := (rfl)
@[simp] theorem State.onVault_power (s : State) (f : Vault → Vault) :
    (s.onVault f).power = s.power := (rfl)
@[simp] theorem State.onVault_ao (s : State) (f : Vault → Vault) :
    (s.onVault f).ao = s.ao := (rfl)
@[simp] theorem State.onVault_sec (s : State) (f : Vault → Vault) :
    (s.onVault f).sec = s.sec := (rfl)
@[simp] theorem State.onVault_vault (s : State) (f : Vault → Vault) :
    (s.onVault f).vault = f s.vault := (rfl)
@[simp] theorem State.onVault_life (s : State) (f : Vault → Vault) :
    (s.onVault f).life = s.life := (rfl)
@[simp] theorem State.onVault_outbox (s : State) (f : Vault → Vault) :
    (s.onVault f).outbox = s.outbox := (rfl)
@[simp] theorem State.onVault_freeCtr (s : State) (f : Vault → Vault) :
    (s.onVault f).freeCtr = s.freeCtr := (rfl)
@[simp] theorem State.onVault_pending (s : State) (f : Vault → Vault) :
    (s.onVault f).pending = s.pending := (rfl)

/-! ## State.onPk -/

@[simp] theorem State.onPk_pk (s : State) (f : Pk → Pk) :
    (s.onPk f).pk = f s.pk := (rfl)
@[simp] theorem State.onPk_site (s : State) (f : Pk → Pk) :
    (s.onPk f).site = s.site := (rfl)
@[simp] theorem State.onPk_link (s : State) (f : Pk → Pk) :
    (s.onPk f).link = s.link := (rfl)
@[simp] theorem State.onPk_proto (s : State) (f : Pk → Pk) :
    (s.onPk f).proto = s.proto := (rfl)
@[simp] theorem State.onPk_mem (s : State) (f : Pk → Pk) :
    (s.onPk f).mem = s.mem := (rfl)
@[simp] theorem State.onPk_regions (s : State) (f : Pk → Pk) :
    (s.onPk f).regions = s.regions := (rfl)
@[simp] theorem State.onPk_clusters (s : State) (f : Pk → Pk) :
    (s.onPk f).clusters = s.clusters := (rfl)
@[simp] theorem State.onPk_power (s : State) (f : Pk → Pk) :
    (s.onPk f).power = s.power := (rfl)
@[simp] theorem State.onPk_ao (s : State) (f : Pk → Pk) :
    (s.onPk f).ao = s.ao := (rfl)
@[simp] theorem State.onPk_sec (s : State) (f : Pk → Pk) :
    (s.onPk f).sec = s.sec := (rfl)
@[simp] theorem State.onPk_vault (s : State) (f : Pk → Pk) :
    (s.onPk f).vault = s.vault := (rfl)
@[simp] theorem State.onPk_life (s : State) (f : Pk → Pk) :
    (s.onPk f).life = s.life := (rfl)
@[simp] theorem State.onPk_outbox (s : State) (f : Pk → Pk) :
    (s.onPk f).outbox = s.outbox := (rfl)
@[simp] theorem State.onPk_freeCtr (s : State) (f : Pk → Pk) :
    (s.onPk f).freeCtr = s.freeCtr := (rfl)
@[simp] theorem State.onPk_pending (s : State) (f : Pk → Pk) :
    (s.onPk f).pending = s.pending := (rfl)

/-! ## State.onSites -/

@[simp] theorem State.onSites_pk (s : State) (r : Region) (f : Sites → Sites) :
    (s.onSites r f).pk = s.pk := (rfl)
@[simp] theorem State.onSites_site (s : State) (r : Region) (f : Sites → Sites) :
    (s.onSites r f).site = { s.site with regions := vmod s.site.regions r f } := (rfl)
@[simp] theorem State.onSites_link (s : State) (r : Region) (f : Sites → Sites) :
    (s.onSites r f).link = s.link := (rfl)
@[simp] theorem State.onSites_proto (s : State) (r : Region) (f : Sites → Sites) :
    (s.onSites r f).proto = s.proto := (rfl)
@[simp] theorem State.onSites_mem (s : State) (r : Region) (f : Sites → Sites) :
    (s.onSites r f).mem = s.mem := (rfl)
@[simp] theorem State.onSites_regions (s : State) (r : Region) (f : Sites → Sites) :
    (s.onSites r f).regions = s.regions := (rfl)
@[simp] theorem State.onSites_clusters (s : State) (r : Region) (f : Sites → Sites) :
    (s.onSites r f).clusters = s.clusters := (rfl)
@[simp] theorem State.onSites_power (s : State) (r : Region) (f : Sites → Sites) :
    (s.onSites r f).power = s.power := (rfl)
@[simp] theorem State.onSites_ao (s : State) (r : Region) (f : Sites → Sites) :
    (s.onSites r f).ao = s.ao := (rfl)
@[simp] theorem State.onSites_sec (s : State) (r : Region) (f : Sites → Sites) :
    (s.onSites r f).sec = s.sec := (rfl)
@[simp] theorem State.onSites_vault (s : State) (r : Region) (f : Sites → Sites) :
    (s.onSites r f).vault = s.vault := (rfl)
@[simp] theorem State.onSites_life (s : State) (r : Region) (f : Sites → Sites) :
    (s.onSites r f).life = s.life := (rfl)
@[simp] theorem State.onSites_outbox (s : State) (r : Region) (f : Sites → Sites) :
    (s.onSites r f).outbox = s.outbox := (rfl)
@[simp] theorem State.onSites_freeCtr (s : State) (r : Region) (f : Sites → Sites) :
    (s.onSites r f).freeCtr = s.freeCtr := (rfl)
@[simp] theorem State.onSites_pending (s : State) (r : Region) (f : Sites → Sites) :
    (s.onSites r f).pending = s.pending := (rfl)

/-! ## State.emit -/

@[simp] theorem State.emit_pk (s : State) (o : Out) :
    (s.emit o).pk = s.pk := (rfl)
@[simp] theorem State.emit_site (s : State) (o : Out) :
    (s.emit o).site = s.site := (rfl)
@[simp] theorem State.emit_link (s : State) (o : Out) :
    (s.emit o).link = s.link := (rfl)
@[simp] theorem State.emit_proto (s : State) (o : Out) :
    (s.emit o).proto = s.proto := (rfl)
@[simp] theorem State.emit_mem (s : State) (o : Out) :
    (s.emit o).mem = s.mem := (rfl)
@[simp] theorem State.emit_regions (s : State) (o : Out) :
    (s.emit o).regions = s.regions := (rfl)
@[simp] theorem State.emit_clusters (s : State) (o : Out) :
    (s.emit o).clusters = s.clusters := (rfl)
@[simp] theorem State.emit_power (s : State) (o : Out) :
    (s.emit o).power = s.power := (rfl)
@[simp] theorem State.emit_ao (s : State) (o : Out) :
    (s.emit o).ao = s.ao := (rfl)
@[simp] theorem State.emit_sec (s : State) (o : Out) :
    (s.emit o).sec = s.sec := (rfl)
@[simp] theorem State.emit_vault (s : State) (o : Out) :
    (s.emit o).vault = s.vault := (rfl)
@[simp] theorem State.emit_life (s : State) (o : Out) :
    (s.emit o).life = s.life := (rfl)
@[simp] theorem State.emit_outbox (s : State) (o : Out) :
    (s.emit o).outbox = s.outbox ++ [o] := (rfl)
@[simp] theorem State.emit_freeCtr (s : State) (o : Out) :
    (s.emit o).freeCtr = s.freeCtr := (rfl)
@[simp] theorem State.emit_pending (s : State) (o : Out) :
    (s.emit o).pending = s.pending := (rfl)

/-! ## State.count -/

@[simp] theorem State.count_pk (s : State) (i : Fin 64) (n : Nat) :
    (s.count i n).pk = s.pk := (rfl)
@[simp] theorem State.count_site (s : State) (i : Fin 64) (n : Nat) :
    (s.count i n).site = s.site := (rfl)
@[simp] theorem State.count_link (s : State) (i : Fin 64) (n : Nat) :
    (s.count i n).link = s.link := (rfl)
@[simp] theorem State.count_proto (s : State) (i : Fin 64) (n : Nat) :
    (s.count i n).proto = s.proto := (rfl)
@[simp] theorem State.count_mem (s : State) (i : Fin 64) (n : Nat) :
    (s.count i n).mem = s.mem := (rfl)
@[simp] theorem State.count_regions (s : State) (i : Fin 64) (n : Nat) :
    (s.count i n).regions = s.regions := (rfl)
@[simp] theorem State.count_clusters (s : State) (i : Fin 64) (n : Nat) :
    (s.count i n).clusters = s.clusters := (rfl)
@[simp] theorem State.count_power (s : State) (i : Fin 64) (n : Nat) :
    (s.count i n).power = s.power := (rfl)
@[simp] theorem State.count_ao (s : State) (i : Fin 64) (n : Nat) :
    (s.count i n).ao = s.ao := (rfl)
@[simp] theorem State.count_sec (s : State) (i : Fin 64) (n : Nat) :
    (s.count i n).sec = s.sec := (rfl)
@[simp] theorem State.count_vault (s : State) (i : Fin 64) (n : Nat) :
    (s.count i n).vault = s.vault := (rfl)
@[simp] theorem State.count_life_kept (s : State) (i : Fin 64) (n : Nat) :
    (s.count i n).life.kept = s.life.kept := (rfl)
@[simp] theorem State.count_life_held (s : State) (i : Fin 64) (n : Nat) :
    (s.count i n).life.held = s.life.held := (rfl)
@[simp] theorem State.count_life_fresh (s : State) (i : Fin 64) (n : Nat) :
    (s.count i n).life.fresh = s.life.fresh := (rfl)
@[simp] theorem State.count_life_busy (s : State) (i : Fin 64) (n : Nat) :
    (s.count i n).life.busy = s.life.busy := (rfl)
@[simp] theorem State.count_life_logFail (s : State) (i : Fin 64) (n : Nat) :
    (s.count i n).life.logFail = s.life.logFail := (rfl)
@[simp] theorem State.count_life_snapValid (s : State) (i : Fin 64) (n : Nat) :
    (s.count i n).life.snapValid = s.life.snapValid := (rfl)
@[simp] theorem State.count_life_lastReason (s : State) (i : Fin 64) (n : Nat) :
    (s.count i n).life.lastReason = s.life.lastReason := (rfl)
@[simp] theorem State.count_life_flushes (s : State) (i : Fin 64) (n : Nat) :
    (s.count i n).life.flushes = s.life.flushes := (rfl)
@[simp] theorem State.count_life_floodCc (s : State) (i : Fin 64) (n : Nat) :
    (s.count i n).life.floodCc = s.life.floodCc := (rfl)
@[simp] theorem State.count_life_log (s : State) (i : Fin 64) (n : Nat) :
    (s.count i n).life.log = s.life.log := (rfl)
@[simp] theorem State.count_life_logSize (s : State) (i : Fin 64) (n : Nat) :
    (s.count i n).life.logSize = s.life.logSize := (rfl)
@[simp] theorem State.count_life_mirror (s : State) (i : Fin 64) (n : Nat) :
    (s.count i n).life.mirror = s.life.mirror := (rfl)
@[simp] theorem State.count_life_mirrorOff (s : State) (i : Fin 64) (n : Nat) :
    (s.count i n).life.mirrorOff = s.life.mirrorOff := (rfl)
@[simp] theorem State.count_life_logWin (s : State) (i : Fin 64) (n : Nat) :
    (s.count i n).life.logWin = s.life.logWin := (rfl)
@[simp] theorem State.count_life_snap (s : State) (i : Fin 64) (n : Nat) :
    (s.count i n).life.snap = s.life.snap := (rfl)
@[simp] theorem State.count_life_reason (s : State) (i : Fin 64) (n : Nat) :
    (s.count i n).life.reason = s.life.reason := (rfl)
@[simp] theorem State.count_life_snapLater (s : State) (i : Fin 64) (n : Nat) :
    (s.count i n).life.snapLater = s.life.snapLater := (rfl)
@[simp] theorem State.count_life_alarmLater (s : State) (i : Fin 64) (n : Nat) :
    (s.count i n).life.alarmLater = s.life.alarmLater := (rfl)
@[simp] theorem State.count_outbox (s : State) (i : Fin 64) (n : Nat) :
    (s.count i n).outbox = s.outbox := (rfl)
@[simp] theorem State.count_freeCtr (s : State) (i : Fin 64) (n : Nat) :
    (s.count i n).freeCtr = s.freeCtr := (rfl)
@[simp] theorem State.count_pending (s : State) (i : Fin 64) (n : Nat) :
    (s.count i n).pending = s.pending := (rfl)

/-! ## State.onBundleLife -/

@[simp] theorem State.onBundleLife_pk (s : State) (b : BundleNo) (f : BundleLife → BundleLife) :
    (s.onBundleLife b f).pk = s.pk := (rfl)
@[simp] theorem State.onBundleLife_site (s : State) (b : BundleNo) (f : BundleLife → BundleLife) :
    (s.onBundleLife b f).site = s.site := (rfl)
@[simp] theorem State.onBundleLife_link (s : State) (b : BundleNo) (f : BundleLife → BundleLife) :
    (s.onBundleLife b f).link = s.link := (rfl)
@[simp] theorem State.onBundleLife_proto (s : State) (b : BundleNo) (f : BundleLife → BundleLife) :
    (s.onBundleLife b f).proto = s.proto := (rfl)
@[simp] theorem State.onBundleLife_mem (s : State) (b : BundleNo) (f : BundleLife → BundleLife) :
    (s.onBundleLife b f).mem = s.mem := (rfl)
@[simp] theorem State.onBundleLife_regions (s : State) (b : BundleNo) (f : BundleLife → BundleLife) :
    (s.onBundleLife b f).regions = s.regions := (rfl)
@[simp] theorem State.onBundleLife_clusters (s : State) (b : BundleNo) (f : BundleLife → BundleLife) :
    (s.onBundleLife b f).clusters = s.clusters := (rfl)
@[simp] theorem State.onBundleLife_power (s : State) (b : BundleNo) (f : BundleLife → BundleLife) :
    (s.onBundleLife b f).power = s.power := (rfl)
@[simp] theorem State.onBundleLife_ao (s : State) (b : BundleNo) (f : BundleLife → BundleLife) :
    (s.onBundleLife b f).ao = s.ao := (rfl)
@[simp] theorem State.onBundleLife_sec (s : State) (b : BundleNo) (f : BundleLife → BundleLife) :
    (s.onBundleLife b f).sec = s.sec := (rfl)
@[simp] theorem State.onBundleLife_vault (s : State) (b : BundleNo) (f : BundleLife → BundleLife) :
    (s.onBundleLife b f).vault = s.vault := (rfl)
@[simp] theorem State.onBundleLife_life_kept (s : State) (b : BundleNo) (f : BundleLife → BundleLife) :
    (s.onBundleLife b f).life.kept = s.life.kept := (rfl)
@[simp] theorem State.onBundleLife_life_held (s : State) (b : BundleNo) (f : BundleLife → BundleLife) :
    (s.onBundleLife b f).life.held = s.life.held := (rfl)
@[simp] theorem State.onBundleLife_life_fresh (s : State) (b : BundleNo) (f : BundleLife → BundleLife) :
    (s.onBundleLife b f).life.fresh = s.life.fresh := (rfl)
@[simp] theorem State.onBundleLife_life_busy (s : State) (b : BundleNo) (f : BundleLife → BundleLife) :
    (s.onBundleLife b f).life.busy = s.life.busy := (rfl)
@[simp] theorem State.onBundleLife_life_logFail (s : State) (b : BundleNo) (f : BundleLife → BundleLife) :
    (s.onBundleLife b f).life.logFail = s.life.logFail := (rfl)
@[simp] theorem State.onBundleLife_life_snapValid (s : State) (b : BundleNo) (f : BundleLife → BundleLife) :
    (s.onBundleLife b f).life.snapValid = s.life.snapValid := (rfl)
@[simp] theorem State.onBundleLife_life_lastReason (s : State) (b : BundleNo) (f : BundleLife → BundleLife) :
    (s.onBundleLife b f).life.lastReason = s.life.lastReason := (rfl)
@[simp] theorem State.onBundleLife_life_flushes (s : State) (b : BundleNo) (f : BundleLife → BundleLife) :
    (s.onBundleLife b f).life.flushes = s.life.flushes := (rfl)
@[simp] theorem State.onBundleLife_life_floodCc (s : State) (b : BundleNo) (f : BundleLife → BundleLife) :
    (s.onBundleLife b f).life.floodCc = s.life.floodCc := (rfl)
@[simp] theorem State.onBundleLife_life_log (s : State) (b : BundleNo) (f : BundleLife → BundleLife) :
    (s.onBundleLife b f).life.log = s.life.log := (rfl)
@[simp] theorem State.onBundleLife_life_logSize (s : State) (b : BundleNo) (f : BundleLife → BundleLife) :
    (s.onBundleLife b f).life.logSize = s.life.logSize := (rfl)
@[simp] theorem State.onBundleLife_life_mirror (s : State) (b : BundleNo) (f : BundleLife → BundleLife) :
    (s.onBundleLife b f).life.mirror = s.life.mirror := (rfl)
@[simp] theorem State.onBundleLife_life_mirrorOff (s : State) (b : BundleNo) (f : BundleLife → BundleLife) :
    (s.onBundleLife b f).life.mirrorOff = s.life.mirrorOff := (rfl)
@[simp] theorem State.onBundleLife_life_logWin (s : State) (b : BundleNo) (f : BundleLife → BundleLife) :
    (s.onBundleLife b f).life.logWin = s.life.logWin := (rfl)
@[simp] theorem State.onBundleLife_life_snap (s : State) (b : BundleNo) (f : BundleLife → BundleLife) :
    (s.onBundleLife b f).life.snap = s.life.snap := (rfl)
@[simp] theorem State.onBundleLife_life_reason (s : State) (b : BundleNo) (f : BundleLife → BundleLife) :
    (s.onBundleLife b f).life.reason = s.life.reason := (rfl)
@[simp] theorem State.onBundleLife_life_snapLater (s : State) (b : BundleNo) (f : BundleLife → BundleLife) :
    (s.onBundleLife b f).life.snapLater = s.life.snapLater := (rfl)
@[simp] theorem State.onBundleLife_life_alarmLater (s : State) (b : BundleNo) (f : BundleLife → BundleLife) :
    (s.onBundleLife b f).life.alarmLater = s.life.alarmLater := (rfl)
@[simp] theorem State.onBundleLife_outbox (s : State) (b : BundleNo) (f : BundleLife → BundleLife) :
    (s.onBundleLife b f).outbox = s.outbox := (rfl)
@[simp] theorem State.onBundleLife_freeCtr (s : State) (b : BundleNo) (f : BundleLife → BundleLife) :
    (s.onBundleLife b f).freeCtr = s.freeCtr := (rfl)
@[simp] theorem State.onBundleLife_pending (s : State) (b : BundleNo) (f : BundleLife → BundleLife) :
    (s.onBundleLife b f).pending = s.pending := (rfl)

/-! ## State.lagoonPut -/

@[simp] theorem State.lagoonPut_pk (s : State) (off : Nat) (bs : List Byte) :
    (s.lagoonPut off bs).pk = s.pk := (rfl)
@[simp] theorem State.lagoonPut_site (s : State) (off : Nat) (bs : List Byte) :
    (s.lagoonPut off bs).site = s.site := (rfl)
@[simp] theorem State.lagoonPut_link (s : State) (off : Nat) (bs : List Byte) :
    (s.lagoonPut off bs).link = s.link := (rfl)
@[simp] theorem State.lagoonPut_proto (s : State) (off : Nat) (bs : List Byte) :
    (s.lagoonPut off bs).proto = s.proto := (rfl)
@[simp] theorem State.lagoonPut_mem_shoal (s : State) (off : Nat) (bs : List Byte) :
    (s.lagoonPut off bs).mem.shoal = s.mem.shoal := (rfl)
@[simp] theorem State.lagoonPut_mem_ctx (s : State) (off : Nat) (bs : List Byte) :
    (s.lagoonPut off bs).mem.ctx = s.mem.ctx := (rfl)
@[simp] theorem State.lagoonPut_mem_lagoon (s : State) (off : Nat) (bs : List Byte) :
    (s.lagoonPut off bs).mem.lagoon = memWriteN s.mem.lagoon off bs := (rfl)
@[simp] theorem State.lagoonPut_mem_poison (s : State) (off : Nat) (bs : List Byte) :
    (s.lagoonPut off bs).mem.poison = s.mem.poison := (rfl)
@[simp] theorem State.lagoonPut_regions (s : State) (off : Nat) (bs : List Byte) :
    (s.lagoonPut off bs).regions = s.regions := (rfl)
@[simp] theorem State.lagoonPut_clusters (s : State) (off : Nat) (bs : List Byte) :
    (s.lagoonPut off bs).clusters = s.clusters := (rfl)
@[simp] theorem State.lagoonPut_power (s : State) (off : Nat) (bs : List Byte) :
    (s.lagoonPut off bs).power = s.power := (rfl)
@[simp] theorem State.lagoonPut_ao (s : State) (off : Nat) (bs : List Byte) :
    (s.lagoonPut off bs).ao = s.ao := (rfl)
@[simp] theorem State.lagoonPut_sec (s : State) (off : Nat) (bs : List Byte) :
    (s.lagoonPut off bs).sec = s.sec := (rfl)
@[simp] theorem State.lagoonPut_vault (s : State) (off : Nat) (bs : List Byte) :
    (s.lagoonPut off bs).vault = s.vault := (rfl)
@[simp] theorem State.lagoonPut_life (s : State) (off : Nat) (bs : List Byte) :
    (s.lagoonPut off bs).life = s.life := (rfl)
@[simp] theorem State.lagoonPut_outbox (s : State) (off : Nat) (bs : List Byte) :
    (s.lagoonPut off bs).outbox = s.outbox := (rfl)
@[simp] theorem State.lagoonPut_freeCtr (s : State) (off : Nat) (bs : List Byte) :
    (s.lagoonPut off bs).freeCtr = s.freeCtr := (rfl)
@[simp] theorem State.lagoonPut_pending (s : State) (off : Nat) (bs : List Byte) :
    (s.lagoonPut off bs).pending = s.pending := (rfl)

/-! ## State.unpoison -/

@[simp] theorem State.unpoison_pk (s : State) (b : Nat) :
    (s.unpoison b).pk = s.pk := (rfl)
@[simp] theorem State.unpoison_site (s : State) (b : Nat) :
    (s.unpoison b).site = s.site := (rfl)
@[simp] theorem State.unpoison_link (s : State) (b : Nat) :
    (s.unpoison b).link = s.link := (rfl)
@[simp] theorem State.unpoison_proto (s : State) (b : Nat) :
    (s.unpoison b).proto = s.proto := (rfl)
@[simp] theorem State.unpoison_mem (s : State) (b : Nat) :
    (s.unpoison b).mem = { s.mem with poison := setErase b s.mem.poison } := (rfl)
@[simp] theorem State.unpoison_regions (s : State) (b : Nat) :
    (s.unpoison b).regions = s.regions := (rfl)
@[simp] theorem State.unpoison_clusters (s : State) (b : Nat) :
    (s.unpoison b).clusters = s.clusters := (rfl)
@[simp] theorem State.unpoison_power (s : State) (b : Nat) :
    (s.unpoison b).power = s.power := (rfl)
@[simp] theorem State.unpoison_ao (s : State) (b : Nat) :
    (s.unpoison b).ao = s.ao := (rfl)
@[simp] theorem State.unpoison_sec (s : State) (b : Nat) :
    (s.unpoison b).sec = s.sec := (rfl)
@[simp] theorem State.unpoison_vault (s : State) (b : Nat) :
    (s.unpoison b).vault = s.vault := (rfl)
@[simp] theorem State.unpoison_life (s : State) (b : Nat) :
    (s.unpoison b).life = s.life := (rfl)
@[simp] theorem State.unpoison_outbox (s : State) (b : Nat) :
    (s.unpoison b).outbox = s.outbox := (rfl)
@[simp] theorem State.unpoison_freeCtr (s : State) (b : Nat) :
    (s.unpoison b).freeCtr = s.freeCtr := (rfl)
@[simp] theorem State.unpoison_pending (s : State) (b : Nat) :
    (s.unpoison b).pending = s.pending := (rfl)

/-! ## State.blockPut -/

@[simp] theorem State.blockPut_pk (s : State) (b : Nat) (bs : List Byte) :
    (s.blockPut b bs).pk = s.pk := by simp [State.blockPut]
@[simp] theorem State.blockPut_site (s : State) (b : Nat) (bs : List Byte) :
    (s.blockPut b bs).site = s.site := by simp [State.blockPut]
@[simp] theorem State.blockPut_link (s : State) (b : Nat) (bs : List Byte) :
    (s.blockPut b bs).link = s.link := by simp [State.blockPut]
@[simp] theorem State.blockPut_proto (s : State) (b : Nat) (bs : List Byte) :
    (s.blockPut b bs).proto = s.proto := by simp [State.blockPut]
@[simp] theorem State.blockPut_mem_shoal (s : State) (b : Nat) (bs : List Byte) :
    (s.blockPut b bs).mem.shoal = s.mem.shoal := by simp [State.blockPut]
@[simp] theorem State.blockPut_mem_ctx (s : State) (b : Nat) (bs : List Byte) :
    (s.blockPut b bs).mem.ctx = s.mem.ctx := by simp [State.blockPut]
@[simp] theorem State.blockPut_mem_lagoon (s : State) (b : Nat) (bs : List Byte) :
    (s.blockPut b bs).mem.lagoon = memWriteN s.mem.lagoon (64 * b) bs := by simp [State.blockPut]
@[simp] theorem State.blockPut_mem_poison (s : State) (b : Nat) (bs : List Byte) :
    (s.blockPut b bs).mem.poison = setErase b s.mem.poison := by simp [State.blockPut]
@[simp] theorem State.blockPut_regions (s : State) (b : Nat) (bs : List Byte) :
    (s.blockPut b bs).regions = s.regions := by simp [State.blockPut]
@[simp] theorem State.blockPut_clusters (s : State) (b : Nat) (bs : List Byte) :
    (s.blockPut b bs).clusters = s.clusters := by simp [State.blockPut]
@[simp] theorem State.blockPut_power (s : State) (b : Nat) (bs : List Byte) :
    (s.blockPut b bs).power = s.power := by simp [State.blockPut]
@[simp] theorem State.blockPut_ao (s : State) (b : Nat) (bs : List Byte) :
    (s.blockPut b bs).ao = s.ao := by simp [State.blockPut]
@[simp] theorem State.blockPut_sec (s : State) (b : Nat) (bs : List Byte) :
    (s.blockPut b bs).sec = s.sec := by simp [State.blockPut]
@[simp] theorem State.blockPut_vault (s : State) (b : Nat) (bs : List Byte) :
    (s.blockPut b bs).vault = s.vault := by simp [State.blockPut]
@[simp] theorem State.blockPut_life (s : State) (b : Nat) (bs : List Byte) :
    (s.blockPut b bs).life = s.life := by simp [State.blockPut]
@[simp] theorem State.blockPut_outbox (s : State) (b : Nat) (bs : List Byte) :
    (s.blockPut b bs).outbox = s.outbox := by simp [State.blockPut]
@[simp] theorem State.blockPut_freeCtr (s : State) (b : Nat) (bs : List Byte) :
    (s.blockPut b bs).freeCtr = s.freeCtr := by simp [State.blockPut]
@[simp] theorem State.blockPut_pending (s : State) (b : Nat) (bs : List Byte) :
    (s.blockPut b bs).pending = s.pending := by simp [State.blockPut]

/-! ## State.shoalPut -/

@[simp] theorem State.shoalPut_pk (s : State) (k off : Nat) (bs : List Byte) :
    (s.shoalPut k off bs).pk = s.pk := (rfl)
@[simp] theorem State.shoalPut_site (s : State) (k off : Nat) (bs : List Byte) :
    (s.shoalPut k off bs).site = s.site := (rfl)
@[simp] theorem State.shoalPut_link (s : State) (k off : Nat) (bs : List Byte) :
    (s.shoalPut k off bs).link = s.link := (rfl)
@[simp] theorem State.shoalPut_proto (s : State) (k off : Nat) (bs : List Byte) :
    (s.shoalPut k off bs).proto = s.proto := (rfl)
@[simp] theorem State.shoalPut_mem (s : State) (k off : Nat) (bs : List Byte) :
    (s.shoalPut k off bs).mem = { s.mem with shoal := memWriteN s.mem.shoal (k * 0x400000 + off) bs } := (rfl)
@[simp] theorem State.shoalPut_regions (s : State) (k off : Nat) (bs : List Byte) :
    (s.shoalPut k off bs).regions = s.regions := (rfl)
@[simp] theorem State.shoalPut_clusters (s : State) (k off : Nat) (bs : List Byte) :
    (s.shoalPut k off bs).clusters = s.clusters := (rfl)
@[simp] theorem State.shoalPut_power (s : State) (k off : Nat) (bs : List Byte) :
    (s.shoalPut k off bs).power = s.power := (rfl)
@[simp] theorem State.shoalPut_ao (s : State) (k off : Nat) (bs : List Byte) :
    (s.shoalPut k off bs).ao = s.ao := (rfl)
@[simp] theorem State.shoalPut_sec (s : State) (k off : Nat) (bs : List Byte) :
    (s.shoalPut k off bs).sec = s.sec := (rfl)
@[simp] theorem State.shoalPut_vault (s : State) (k off : Nat) (bs : List Byte) :
    (s.shoalPut k off bs).vault = s.vault := (rfl)
@[simp] theorem State.shoalPut_life (s : State) (k off : Nat) (bs : List Byte) :
    (s.shoalPut k off bs).life = s.life := (rfl)
@[simp] theorem State.shoalPut_outbox (s : State) (k off : Nat) (bs : List Byte) :
    (s.shoalPut k off bs).outbox = s.outbox := (rfl)
@[simp] theorem State.shoalPut_freeCtr (s : State) (k off : Nat) (bs : List Byte) :
    (s.shoalPut k off bs).freeCtr = s.freeCtr := (rfl)
@[simp] theorem State.shoalPut_pending (s : State) (k off : Nat) (bs : List Byte) :
    (s.shoalPut k off bs).pending = s.pending := (rfl)

/-! ## State.putTableCtx -/

@[simp] theorem State.putTableCtx_pk (s : State) (n : Nat) (c : FerryCtx) :
    (s.putTableCtx n c).pk = s.pk := by simp only [State.putTableCtx]
@[simp] theorem State.putTableCtx_site (s : State) (n : Nat) (c : FerryCtx) :
    (s.putTableCtx n c).site = s.site := by simp only [State.putTableCtx]
@[simp] theorem State.putTableCtx_link (s : State) (n : Nat) (c : FerryCtx) :
    (s.putTableCtx n c).link = s.link := by simp only [State.putTableCtx]
@[simp] theorem State.putTableCtx_proto (s : State) (n : Nat) (c : FerryCtx) :
    (s.putTableCtx n c).proto = s.proto := by simp only [State.putTableCtx]
@[simp] theorem State.putTableCtx_mem (s : State) (n : Nat) (c : FerryCtx) :
    (s.putTableCtx n c).mem = { s.mem with ctx := memWriteN s.mem.ctx (64 * n) (natToBytes 64 c.toNat) } := by simp only [State.putTableCtx]
@[simp] theorem State.putTableCtx_regions (s : State) (n : Nat) (c : FerryCtx) :
    (s.putTableCtx n c).regions = s.regions := by simp only [State.putTableCtx]
@[simp] theorem State.putTableCtx_clusters (s : State) (n : Nat) (c : FerryCtx) :
    (s.putTableCtx n c).clusters = s.clusters := by simp only [State.putTableCtx]
@[simp] theorem State.putTableCtx_power (s : State) (n : Nat) (c : FerryCtx) :
    (s.putTableCtx n c).power = s.power := by simp only [State.putTableCtx]
@[simp] theorem State.putTableCtx_ao (s : State) (n : Nat) (c : FerryCtx) :
    (s.putTableCtx n c).ao = s.ao := by simp only [State.putTableCtx]
@[simp] theorem State.putTableCtx_sec (s : State) (n : Nat) (c : FerryCtx) :
    (s.putTableCtx n c).sec = s.sec := by simp only [State.putTableCtx]
@[simp] theorem State.putTableCtx_vault (s : State) (n : Nat) (c : FerryCtx) :
    (s.putTableCtx n c).vault = s.vault := by simp only [State.putTableCtx]
@[simp] theorem State.putTableCtx_life (s : State) (n : Nat) (c : FerryCtx) :
    (s.putTableCtx n c).life = s.life := by simp only [State.putTableCtx]
@[simp] theorem State.putTableCtx_outbox (s : State) (n : Nat) (c : FerryCtx) :
    (s.putTableCtx n c).outbox = s.outbox := by simp only [State.putTableCtx]
@[simp] theorem State.putTableCtx_freeCtr (s : State) (n : Nat) (c : FerryCtx) :
    (s.putTableCtx n c).freeCtr = s.freeCtr := by simp only [State.putTableCtx]
@[simp] theorem State.putTableCtx_pending (s : State) (n : Nat) (c : FerryCtx) :
    (s.putTableCtx n c).pending = s.pending := by simp only [State.putTableCtx]

/-! ## State.zeroLagoon -/

@[simp] theorem State.zeroLagoon_pk (s : State) :
    (s.zeroLagoon).pk = s.pk := (rfl)
@[simp] theorem State.zeroLagoon_site (s : State) :
    (s.zeroLagoon).site = s.site := (rfl)
@[simp] theorem State.zeroLagoon_link (s : State) :
    (s.zeroLagoon).link = s.link := (rfl)
@[simp] theorem State.zeroLagoon_proto (s : State) :
    (s.zeroLagoon).proto = s.proto := (rfl)
@[simp] theorem State.zeroLagoon_mem (s : State)  :
    (s.zeroLagoon).mem = { s.mem with lagoon := [], crcBad := [], poison := [] } := (rfl)
@[simp] theorem State.zeroLagoon_regions (s : State) :
    (s.zeroLagoon).regions = s.regions := (rfl)
@[simp] theorem State.zeroLagoon_clusters (s : State) :
    (s.zeroLagoon).clusters = s.clusters := (rfl)
@[simp] theorem State.zeroLagoon_power (s : State) :
    (s.zeroLagoon).power = s.power := (rfl)
@[simp] theorem State.zeroLagoon_ao (s : State) :
    (s.zeroLagoon).ao = s.ao := (rfl)
@[simp] theorem State.zeroLagoon_sec (s : State) :
    (s.zeroLagoon).sec = s.sec := (rfl)
@[simp] theorem State.zeroLagoon_vault (s : State) :
    (s.zeroLagoon).vault = s.vault := (rfl)
@[simp] theorem State.zeroLagoon_life (s : State) :
    (s.zeroLagoon).life = s.life := (rfl)
@[simp] theorem State.zeroLagoon_outbox (s : State) :
    (s.zeroLagoon).outbox = s.outbox := (rfl)
@[simp] theorem State.zeroLagoon_freeCtr (s : State) :
    (s.zeroLagoon).freeCtr = s.freeCtr := (rfl)
@[simp] theorem State.zeroLagoon_pending (s : State) :
    (s.zeroLagoon).pending = s.pending := (rfl)

/-! ## State.zeroShoal -/

@[simp] theorem State.zeroShoal_pk (s : State) :
    (s.zeroShoal).pk = s.pk := (rfl)
@[simp] theorem State.zeroShoal_site (s : State) :
    (s.zeroShoal).site = s.site := (rfl)
@[simp] theorem State.zeroShoal_link (s : State) :
    (s.zeroShoal).link = s.link := (rfl)
@[simp] theorem State.zeroShoal_proto (s : State) :
    (s.zeroShoal).proto = s.proto := (rfl)
@[simp] theorem State.zeroShoal_mem (s : State)  :
    (s.zeroShoal).mem = { s.mem with shoal := [] } := (rfl)
@[simp] theorem State.zeroShoal_regions (s : State) :
    (s.zeroShoal).regions = s.regions := (rfl)
@[simp] theorem State.zeroShoal_clusters (s : State) :
    (s.zeroShoal).clusters = s.clusters := (rfl)
@[simp] theorem State.zeroShoal_power (s : State) :
    (s.zeroShoal).power = s.power := (rfl)
@[simp] theorem State.zeroShoal_ao (s : State) :
    (s.zeroShoal).ao = s.ao := (rfl)
@[simp] theorem State.zeroShoal_sec (s : State) :
    (s.zeroShoal).sec = s.sec := (rfl)
@[simp] theorem State.zeroShoal_vault (s : State) :
    (s.zeroShoal).vault = s.vault := (rfl)
@[simp] theorem State.zeroShoal_life (s : State) :
    (s.zeroShoal).life = s.life := (rfl)
@[simp] theorem State.zeroShoal_outbox (s : State) :
    (s.zeroShoal).outbox = s.outbox := (rfl)
@[simp] theorem State.zeroShoal_freeCtr (s : State) :
    (s.zeroShoal).freeCtr = s.freeCtr := (rfl)
@[simp] theorem State.zeroShoal_pending (s : State) :
    (s.zeroShoal).pending = s.pending := (rfl)

/-! ## State.withImage -/

@[simp] theorem State.withImage_pk (s : State) (m : Mem) :
    (s.withImage m).pk = s.pk := (rfl)
@[simp] theorem State.withImage_site (s : State) (m : Mem) :
    (s.withImage m).site = { s.site with image := m } := (rfl)
@[simp] theorem State.withImage_link (s : State) (m : Mem) :
    (s.withImage m).link = s.link := (rfl)
@[simp] theorem State.withImage_proto (s : State) (m : Mem) :
    (s.withImage m).proto = s.proto := (rfl)
@[simp] theorem State.withImage_mem (s : State) (m : Mem) :
    (s.withImage m).mem = s.mem := (rfl)
@[simp] theorem State.withImage_regions (s : State) (m : Mem) :
    (s.withImage m).regions = s.regions := (rfl)
@[simp] theorem State.withImage_clusters (s : State) (m : Mem) :
    (s.withImage m).clusters = s.clusters := (rfl)
@[simp] theorem State.withImage_power (s : State) (m : Mem) :
    (s.withImage m).power = s.power := (rfl)
@[simp] theorem State.withImage_ao (s : State) (m : Mem) :
    (s.withImage m).ao = s.ao := (rfl)
@[simp] theorem State.withImage_sec (s : State) (m : Mem) :
    (s.withImage m).sec = s.sec := (rfl)
@[simp] theorem State.withImage_vault (s : State) (m : Mem) :
    (s.withImage m).vault = s.vault := (rfl)
@[simp] theorem State.withImage_life (s : State) (m : Mem) :
    (s.withImage m).life = s.life := (rfl)
@[simp] theorem State.withImage_outbox (s : State) (m : Mem) :
    (s.withImage m).outbox = s.outbox := (rfl)
@[simp] theorem State.withImage_freeCtr (s : State) (m : Mem) :
    (s.withImage m).freeCtr = s.freeCtr := (rfl)
@[simp] theorem State.withImage_pending (s : State) (m : Mem) :
    (s.withImage m).pending = s.pending := (rfl)

/-! ## State.logAdd -/

@[simp] theorem State.logAdd_pk (s : State) (r : List Byte) :
    (s.logAdd r).pk = s.pk := (rfl)
@[simp] theorem State.logAdd_site (s : State) (r : List Byte) :
    (s.logAdd r).site = s.site := (rfl)
@[simp] theorem State.logAdd_link (s : State) (r : List Byte) :
    (s.logAdd r).link = s.link := (rfl)
@[simp] theorem State.logAdd_proto (s : State) (r : List Byte) :
    (s.logAdd r).proto = s.proto := (rfl)
@[simp] theorem State.logAdd_mem (s : State) (r : List Byte) :
    (s.logAdd r).mem = s.mem := (rfl)
@[simp] theorem State.logAdd_regions (s : State) (r : List Byte) :
    (s.logAdd r).regions = s.regions := (rfl)
@[simp] theorem State.logAdd_clusters (s : State) (r : List Byte) :
    (s.logAdd r).clusters = s.clusters := (rfl)
@[simp] theorem State.logAdd_power (s : State) (r : List Byte) :
    (s.logAdd r).power = s.power := (rfl)
@[simp] theorem State.logAdd_ao (s : State) (r : List Byte) :
    (s.logAdd r).ao = s.ao := (rfl)
@[simp] theorem State.logAdd_sec (s : State) (r : List Byte) :
    (s.logAdd r).sec = s.sec := (rfl)
@[simp] theorem State.logAdd_vault (s : State) (r : List Byte) :
    (s.logAdd r).vault = s.vault := (rfl)
@[simp] theorem State.logAdd_life (s : State) (r : List Byte) :
    (s.logAdd r).life = { s.life with log := logAppend s.life.log s.life.logSize r } := (rfl)
@[simp] theorem State.logAdd_outbox (s : State) (r : List Byte) :
    (s.logAdd r).outbox = s.outbox := (rfl)
@[simp] theorem State.logAdd_freeCtr (s : State) (r : List Byte) :
    (s.logAdd r).freeCtr = s.freeCtr := (rfl)
@[simp] theorem State.logAdd_pending (s : State) (r : List Byte) :
    (s.logAdd r).pending = s.pending := (rfl)

/-! ## State.endStart -/

@[simp] theorem State.endStart_pk (s : State) (ph : Phase) :
    (s.endStart ph).pk = { s.pk with phase := ph } := (rfl)
@[simp] theorem State.endStart_site (s : State) (ph : Phase) :
    (s.endStart ph).site = s.site := (rfl)
@[simp] theorem State.endStart_link (s : State) (ph : Phase) :
    (s.endStart ph).link = s.link := (rfl)
@[simp] theorem State.endStart_proto (s : State) (ph : Phase) :
    (s.endStart ph).proto = { s.proto with windows := Vector.replicate 7 (Vector.replicate 16 Window16.reset) } := (rfl)
@[simp] theorem State.endStart_mem (s : State) (ph : Phase) :
    (s.endStart ph).mem = s.mem := (rfl)
@[simp] theorem State.endStart_regions (s : State) (ph : Phase) :
    (s.endStart ph).regions = s.regions := (rfl)
@[simp] theorem State.endStart_clusters (s : State) (ph : Phase) :
    (s.endStart ph).clusters = s.clusters := (rfl)
@[simp] theorem State.endStart_power (s : State) (ph : Phase) :
    (s.endStart ph).power = s.power := (rfl)
@[simp] theorem State.endStart_ao (s : State) (ph : Phase) :
    (s.endStart ph).ao = s.ao := (rfl)
@[simp] theorem State.endStart_sec (s : State) (ph : Phase) :
    (s.endStart ph).sec = s.sec := (rfl)
@[simp] theorem State.endStart_vault (s : State) (ph : Phase) :
    (s.endStart ph).vault = s.vault := (rfl)
@[simp] theorem State.endStart_life (s : State) (ph : Phase) :
    (s.endStart ph).life = s.life := (rfl)
@[simp] theorem State.endStart_outbox (s : State) (ph : Phase) :
    (s.endStart ph).outbox = s.outbox := (rfl)
@[simp] theorem State.endStart_freeCtr (s : State) (ph : Phase) :
    (s.endStart ph).freeCtr = s.freeCtr := (rfl)
@[simp] theorem State.endStart_pending (s : State) (ph : Phase) :
    (s.endStart ph).pending = s.pending := (rfl)

end Sys2Proof.Machine
end

