-- ==== Sys2Proof/Laws/Base.lean ====
section
/-! SUPPORT. What folds, memory writes and list updates keep: the lemmas that the frame files rest on. -/

namespace Sys2Proof.Machine

@[simp] theorem W.on_s (w : W) (f : State → State) : (w.on f).s = f w.s := (rfl)
@[simp] theorem W.on_env (w : W) (f : State → State) : (w.on f).env = w.env := (rfl)

theorem risingFrom_mono {lo lo' : Nat} {xs : List Nat} (h : risingFrom lo xs = true) (hl : lo' ≤ lo) :
    risingFrom lo' xs = true := by
  cases xs with
  | nil => rfl
  | cons x xs =>
    simp only [risingFrom, Bool.and_eq_true, decide_eq_true_eq] at h ⊢
    exact ⟨by omega, h.2⟩

theorem risingFrom_filter {lo : Nat} {xs : List Nat} (h : risingFrom lo xs = true) (p : Nat → Bool) :
    risingFrom lo (xs.filter p) = true := by
  induction xs generalizing lo with
  | nil => rfl
  | cons x xs ih =>
    simp only [risingFrom, Bool.and_eq_true, decide_eq_true_eq] at h
    by_cases hp : p x = true
    · rw [List.filter_cons_of_pos hp]
      simp only [risingFrom, Bool.and_eq_true, decide_eq_true_eq]
      exact ⟨h.1, ih h.2⟩
    · rw [List.filter_cons_of_neg hp]
      exact risingFrom_mono (ih h.2) (by omega)

theorem risingFrom_setInsert {lo : Nat} {xs : List Nat} (h : risingFrom lo xs = true) {x : Nat} (hx : lo ≤ x) :
    risingFrom lo (setInsert x xs) = true := by
  induction xs generalizing lo with
  | nil => simp [setInsert, risingFrom, hx]
  | cons y ys ih =>
    simp only [risingFrom, Bool.and_eq_true, decide_eq_true_eq] at h
    by_cases h1 : x < y
    · have : x + 1 ≤ y := h1
      simp [setInsert, h1, risingFrom, hx, this, h.2]
    · by_cases h2 : x = y
      · simp [setInsert, h2, risingFrom, h.1, h.2]
      · simp only [setInsert, h1, h2, if_false, risingFrom, Bool.and_eq_true, decide_eq_true_eq]
        exact ⟨h.1, ih h.2 (by omega)⟩

theorem Memory.ok_iff (m : Memory) : m.ok = true ↔
    memWf m.lagoon = true ∧ memWf m.shoal = true ∧ memWf m.ctx = true ∧ risingFrom 0 m.poison = true := by
  simp [Memory.ok, and_assoc]

@[simp] theorem State.lagoonPut_ok (s : State) (off : Nat) (bs : List Byte) (h : s.mem.ok = true) :
    (s.lagoonPut off bs).mem.ok = true := by
  rw [Memory.ok_iff] at h ⊢
  exact ⟨memWf_memWriteN h.1 _ _, h.2.1, h.2.2.1, h.2.2.2⟩

@[simp] theorem State.unpoison_ok (s : State) (b : Nat) (h : s.mem.ok = true) :
    (s.unpoison b).mem.ok = true := by
  rw [Memory.ok_iff] at h ⊢
  exact ⟨h.1, h.2.1, h.2.2.1, risingFrom_filter h.2.2.2 _⟩

@[simp] theorem State.blockPut_ok (s : State) (b : Nat) (bs : List Byte) (h : s.mem.ok = true) :
    (s.blockPut b bs).mem.ok = true :=
  State.unpoison_ok _ _ (State.lagoonPut_ok _ _ _ h)

@[simp] theorem State.shoalPut_ok (s : State) (k off : Nat) (bs : List Byte) (h : s.mem.ok = true) :
    (s.shoalPut k off bs).mem.ok = true := by
  rw [Memory.ok_iff] at h ⊢
  exact ⟨h.1, memWf_memWriteN h.2.1 _ _, h.2.2.1, h.2.2.2⟩

/-- A context table row written keeps the memories in order. -/
@[simp] theorem Memory.ok_ctx (m : Memory) (a : Nat) (bs : List Byte) (h : m.ok = true) :
    Memory.ok { m with ctx := memWriteN m.ctx a bs } = true := by
  rw [Memory.ok_iff] at h ⊢
  exact ⟨h.1, h.2.1, memWf_memWriteN h.2.2.1 _ _, h.2.2.2⟩

@[simp] theorem Memory.ok_shoal (m : Memory) (a : Nat) (bs : List Byte) (h : m.ok = true) :
    Memory.ok { m with shoal := memWriteN m.shoal a bs } = true := by
  rw [Memory.ok_iff] at h ⊢
  exact ⟨h.1, memWf_memWriteN h.2.1 _ _, h.2.2.1, h.2.2.2⟩

@[simp] theorem Memory.ok_poison (m : Memory) (b : Nat) (h : m.ok = true) :
    Memory.ok { m with poison := setInsert b m.poison } = true := by
  rw [Memory.ok_iff] at h ⊢
  exact ⟨h.1, h.2.1, h.2.2.1, risingFrom_setInsert h.2.2.2 (Nat.zero_le b)⟩

@[simp] theorem State.putTableCtx_ok (s : State) (n : Nat) (c : FerryCtx) (h : s.mem.ok = true) :
    (s.putTableCtx n c).mem.ok = true := by
  rw [State.putTableCtx_mem]; exact Memory.ok_ctx _ _ _ h

@[simp] theorem State.zeroLagoon_ok (s : State) (h : s.mem.ok = true) : s.zeroLagoon.mem.ok = true := by
  rw [Memory.ok_iff] at h ⊢
  exact ⟨rfl, h.2.1, h.2.2.1, rfl⟩

@[simp] theorem State.zeroShoal_ok (s : State) (h : s.mem.ok = true) : s.zeroShoal.mem.ok = true := by
  rw [Memory.ok_iff] at h ⊢
  exact ⟨h.1, rfl, h.2.2.1, h.2.2.2⟩

/-- A fold keeps what each of its steps keeps. -/
theorem foldl_keeps {α β : Type} (p : β → Prop) (f : β → α → β) (hf : ∀ b a, p b → p (f b a)) (xs : List α)
    (b : β) (h : p b) : p (xs.foldl f b) := by
  induction xs generalizing b with
  | nil => exact h
  | cons x xs ih => exact ih _ (hf b x h)

@[simp] theorem foldl_mem {α : Type} (f : State → α → State) (hf : ∀ b a, (f b a).mem = b.mem) (xs : List α)
    (s : State) : (xs.foldl f s).mem = s.mem := by
  induction xs generalizing s with
  | nil => rfl
  | cons x xs ih => rw [List.foldl_cons, ih, hf]

@[simp] theorem foldl_pending {α : Type} (f : State → α → State) (hf : ∀ b a, (f b a).pending = b.pending)
    (xs : List α) (s : State) : (xs.foldl f s).pending = s.pending := by
  induction xs generalizing s with
  | nil => rfl
  | cons x xs ih => rw [List.foldl_cons, ih, hf]

@[simp] theorem foldl_ok {α : Type} (f : State → α → State)
    (hf : ∀ b a, b.mem.ok = true → (f b a).mem.ok = true) (xs : List α)
    (s : State) (h : s.mem.ok = true) : (xs.foldl f s).mem.ok = true :=
  foldl_keeps (fun s => s.mem.ok = true) f hf xs s h

@[simp] theorem foldl_W_mem {α : Type} (f : W → α → W) (hf : ∀ b a, (f b a).s.mem = b.s.mem) (xs : List α)
    (w : W) : (xs.foldl f w).s.mem = w.s.mem := by
  induction xs generalizing w with
  | nil => rfl
  | cons x xs ih => rw [List.foldl_cons, ih, hf]

@[simp] theorem foldl_W_pending {α : Type} (f : W → α → W) (hf : ∀ b a, (f b a).s.pending = b.s.pending)
    (xs : List α) (w : W) : (xs.foldl f w).s.pending = w.s.pending := by
  induction xs generalizing w with
  | nil => rfl
  | cons x xs ih => rw [List.foldl_cons, ih, hf]

@[simp] theorem foldl_W_ok {α : Type} (f : W → α → W)
    (hf : ∀ b a, b.s.mem.ok = true → (f b a).s.mem.ok = true) (xs : List α)
    (w : W) (h : w.s.mem.ok = true) : (xs.foldl f w).s.mem.ok = true :=
  foldl_keeps (fun w => w.s.mem.ok = true) f hf xs w h

@[simp] theorem foldl_pair_pending {α β : Type} (f : W × β → α → W × β)
    (hf : ∀ x a, (f x a).1.s.pending = x.1.s.pending) (xs : List α) (x : W × β) :
    (xs.foldl f x).1.s.pending = x.1.s.pending := by
  induction xs generalizing x with
  | nil => rfl
  | cons y ys ih => rw [List.foldl_cons, ih, hf]

@[simp] theorem foldl_pair_ok {α β : Type} (f : W × β → α → W × β)
    (hf : ∀ x a, x.1.s.mem.ok = true → (f x a).1.s.mem.ok = true) (xs : List α) (x : W × β)
    (h : x.1.s.mem.ok = true) : (xs.foldl f x).1.s.mem.ok = true :=
  foldl_keeps (fun x => x.1.s.mem.ok = true) f hf xs x h

theorem Memory.ok_mk (l : Mem) (c : List (Nat × BitVec 16)) (p : List Nat) (s x : Mem) :
    Memory.ok ⟨l, c, p, s, x⟩ = (memWf l && memWf s && memWf x && risingFrom 0 p) := (rfl)

@[simp] theorem gotThen_pending {α β : Type} (x : W × Got α) (f : W → α → W × Got β)
    (hf : ∀ w a, (f w a).1.s.pending = w.s.pending) : (gotThen x f).1.s.pending = x.1.s.pending := by
  simp only [gotThen]; split <;> simp [hf]

@[simp] theorem gotThen_ok {α β : Type} (x : W × Got α) (f : W → α → W × Got β)
    (hf : ∀ w a, w.s.mem.ok = true → (f w a).1.s.mem.ok = true) (h : x.1.s.mem.ok = true) :
    (gotThen x f).1.s.mem.ok = true := by
  simp only [gotThen]; split <;> simp [hf, h]

@[simp] theorem foldl_pk {α : Type} (f : State → α → State) (hf : ∀ b a, (f b a).pk = b.pk) (xs : List α)
    (s : State) : (xs.foldl f s).pk = s.pk := by
  induction xs generalizing s with
  | nil => rfl
  | cons x xs ih => rw [List.foldl_cons, ih, hf]

@[simp] theorem foldl_W_pk {α : Type} (f : W → α → W) (hf : ∀ b a, (f b a).s.pk = b.s.pk) (xs : List α)
    (w : W) : (xs.foldl f w).s.pk = w.s.pk := by
  induction xs generalizing w with
  | nil => rfl
  | cons x xs ih => rw [List.foldl_cons, ih, hf]

@[simp] theorem foldl_pair_pk {α β : Type} (f : W × β → α → W × β)
    (hf : ∀ x a, (f x a).1.s.pk = x.1.s.pk) (xs : List α) (x : W × β) :
    (xs.foldl f x).1.s.pk = x.1.s.pk := by
  induction xs generalizing x with
  | nil => rfl
  | cons y ys ih => rw [List.foldl_cons, ih, hf]

@[simp] theorem gotThen_pk {α β : Type} (x : W × Got α) (f : W → α → W × Got β)
    (hf : ∀ w a, (f w a).1.s.pk = w.s.pk) : (gotThen x f).1.s.pk = x.1.s.pk := by
  simp only [gotThen]; split <;> simp [hf]

@[simp] theorem foldl_sec {α : Type} (f : State → α → State) (hf : ∀ b a, (f b a).sec = b.sec) (xs : List α)
    (s : State) : (xs.foldl f s).sec = s.sec := by
  induction xs generalizing s with
  | nil => rfl
  | cons x xs ih => rw [List.foldl_cons, ih, hf]

@[simp] theorem foldl_W_sec {α : Type} (f : W → α → W) (hf : ∀ b a, (f b a).s.sec = b.s.sec) (xs : List α)
    (w : W) : (xs.foldl f w).s.sec = w.s.sec := by
  induction xs generalizing w with
  | nil => rfl
  | cons x xs ih => rw [List.foldl_cons, ih, hf]

@[simp] theorem foldl_pair_sec {α β : Type} (f : W × β → α → W × β)
    (hf : ∀ x a, (f x a).1.s.sec = x.1.s.sec) (xs : List α) (x : W × β) :
    (xs.foldl f x).1.s.sec = x.1.s.sec := by
  induction xs generalizing x with
  | nil => rfl
  | cons y ys ih => rw [List.foldl_cons, ih, hf]

@[simp] theorem gotThen_sec {α β : Type} (x : W × Got α) (f : W → α → W × Got β)
    (hf : ∀ w a, (f w a).1.s.sec = w.s.sec) : (gotThen x f).1.s.sec = x.1.s.sec := by
  simp only [gotThen]; split <;> simp [hf]


@[simp] theorem foldl_W_stepping {α : Type} (f : W → α → W) (hf : ∀ b a, (f b a).s.pk.stepping = b.s.pk.stepping)
    (xs : List α) (w : W) : (xs.foldl f w).s.pk.stepping = w.s.pk.stepping := by
  induction xs generalizing w with
  | nil => (rfl)
  | cons x xs ih => rw [List.foldl_cons, ih, hf]

end Sys2Proof.Machine
end

