-- ==== Sys2Proof/Laws/Frame.lean ====
section
/-! SUPPORT. What the shared operations of the machine, its links, requests, instances and ferries keep: the queue always, the
memories where they do not store, their canonical form where they do, and the PK_ and SEC_ registers they do not write. -/

namespace Sys2Proof.Machine

/-! ## Machine/Ops -/

@[simp] theorem State.wakeRegion_frame (s : State) (r : Region) :
    (State.wakeRegion s r).mem = s.mem ∧ (State.wakeRegion s r).pending = s.pending := by
  simp only [State.wakeRegion]; (repeat' split) <;> simp

@[simp] theorem State.wakeRegion_still (s : State) (r : Region) :
    (State.wakeRegion s r).pk = s.pk ∧ (State.wakeRegion s r).sec = s.sec := by
  simp only [State.wakeRegion]; (repeat' split) <;> simp

@[simp] theorem W.answer_frame (w : W) :
    (W.answer w).1.s.mem = w.s.mem ∧ (W.answer w).1.s.pending = w.s.pending := by
  simp only [W.answer]; (repeat' split) <;> simp

@[simp] theorem W.answer_still (w : W) :
    (W.answer w).1.s.pk = w.s.pk ∧ (W.answer w).1.s.sec = w.s.sec := by
  simp only [W.answer]; (repeat' split) <;> simp

@[simp] theorem State.numbered_frame (s : State) (x : Way) :
    (State.numbered s x).1.mem = s.mem ∧ (State.numbered s x).1.pending = s.pending := by
  simp only [State.numbered]; (repeat' split) <;> simp

@[simp] theorem State.numbered_still (s : State) (x : Way) :
    (State.numbered s x).1.pk = s.pk ∧ (State.numbered s x).1.sec = s.sec := by
  simp only [State.numbered]; (repeat' split) <;> simp

@[simp] theorem State.noteRefused_frame (s : State) (dir hit : Bool) (win : Nat) (p : Port) (a : Nat) :
    (State.noteRefused s dir hit win p a).mem = s.mem ∧
      (State.noteRefused s dir hit win p a).pending = s.pending := by
  simp [State.noteRefused]

@[simp] theorem State.noteRefused_still (s : State) (dir hit : Bool) (win : Nat) (p : Port) (a : Nat) :
    (State.noteRefused s dir hit win p a).pk = s.pk ∧ (State.noteRefused s dir hit win p a).sec = s.sec := by
  simp [State.noteRefused]

@[simp] theorem State.timedOut_frame (s : State) :
    (State.timedOut s).mem = s.mem ∧ (State.timedOut s).pending = s.pending := by
  simp [State.timedOut]

@[simp] theorem State.timedOut_still (s : State) :
    (State.timedOut s).pk = s.pk ∧ (State.timedOut s).sec = s.sec := by
  simp [State.timedOut]

@[simp] theorem State.memReread_frame (s : State) :
    (State.memReread s).mem = s.mem ∧ (State.memReread s).pending = s.pending := by
  simp [State.memReread]

@[simp] theorem State.memReread_still (s : State) :
    (State.memReread s).pk = s.pk ∧ (State.memReread s).sec = s.sec := by
  simp [State.memReread]

@[simp] theorem State.memCrcFailed_frame (s : State) :
    (State.memCrcFailed s).mem = s.mem ∧ (State.memCrcFailed s).pending = s.pending := by
  simp [State.memCrcFailed]

@[simp] theorem State.memCrcFailed_still (s : State) :
    (State.memCrcFailed s).pk = s.pk ∧ (State.memCrcFailed s).sec = s.sec := by
  simp [State.memCrcFailed]

@[simp] theorem State.memWriteFailed_frame (s : State) :
    (State.memWriteFailed s).mem = s.mem ∧ (State.memWriteFailed s).pending = s.pending := by
  simp [State.memWriteFailed]

@[simp] theorem State.memWriteFailed_still (s : State) :
    (State.memWriteFailed s).pk = s.pk ∧ (State.memWriteFailed s).sec = s.sec := by
  simp [State.memWriteFailed]

@[simp] theorem State.notePeak_frame (s : State) (n : Nat) :
    (State.notePeak s n).mem = s.mem ∧ (State.notePeak s n).pending = s.pending := by
  simp only [State.notePeak]; (repeat' split) <;> simp

@[simp] theorem State.notePeak_still (s : State) (n : Nat) :
    (State.notePeak s n).pk = s.pk ∧ (State.notePeak s n).sec = s.sec := by
  simp only [State.notePeak]; (repeat' split) <;> simp

@[simp] theorem W.ask_frame (w : W) (x : Post) :
    (W.ask w x).1.s.mem = w.s.mem ∧ (W.ask w x).1.s.pending = w.s.pending := by
  simp only [W.ask]; (repeat' split) <;> simp

@[simp] theorem W.ask_still (w : W) (x : Post) :
    (W.ask w x).1.s.pk = w.s.pk ∧ (W.ask w x).1.s.sec = w.s.sec := by
  simp only [W.ask]; (repeat' split) <;> simp

@[simp] theorem W.askWay_frame (w : W) (x : Way) (op len : Nat) (data : List Byte) (op0 : W64) :
    (W.askWay w x op len data op0).1.s.mem = w.s.mem ∧ (W.askWay w x op len data op0).1.s.pending = w.s.pending := by
  simp [W.askWay]

@[simp] theorem W.askWay_still (w : W) (x : Way) (op len : Nat) (data : List Byte) (op0 : W64) :
    (W.askWay w x op len data op0).1.s.pk = w.s.pk ∧ (W.askWay w x op len data op0).1.s.sec = w.s.sec := by
  simp [W.askWay]

@[simp] theorem W.askBlocks_frame (w : W) (x : Way) (n : Nat) :
    (W.askBlocks w x n).1.s.mem = w.s.mem ∧ (W.askBlocks w x n).1.s.pending = w.s.pending := by
  simp only [W.askBlocks]; (repeat' split) <;> simp

@[simp] theorem W.askBlocks_still (w : W) (x : Way) (n : Nat) :
    (W.askBlocks w x n).1.s.pk = w.s.pk ∧ (W.askBlocks w x n).1.s.sec = w.s.sec := by
  simp only [W.askBlocks]; (repeat' split) <;> simp

@[simp] theorem W.askRead_frame (w : W) (x : Way) (n : Nat) :
    (W.askRead w x n).1.s.mem = w.s.mem ∧ (W.askRead w x n).1.s.pending = w.s.pending := by
  simp only [W.askRead]; (repeat' split) <;> simp

@[simp] theorem W.askRead_still (w : W) (x : Way) (n : Nat) :
    (W.askRead w x n).1.s.pk = w.s.pk ∧ (W.askRead w x n).1.s.sec = w.s.sec := by
  simp only [W.askRead]; (repeat' split) <;> simp

@[simp] theorem W.putBlocks_frame (w : W) (x : Way) (bs : List Byte) :
    (W.putBlocks w x bs).1.s.mem = w.s.mem ∧ (W.putBlocks w x bs).1.s.pending = w.s.pending := by
  simp only [W.putBlocks]; (repeat' split) <;> simp

@[simp] theorem W.putBlocks_still (w : W) (x : Way) (bs : List Byte) :
    (W.putBlocks w x bs).1.s.pk = w.s.pk ∧ (W.putBlocks w x bs).1.s.sec = w.s.sec := by
  simp only [W.putBlocks]; (repeat' split) <;> simp

@[simp] theorem W.askWrite_frame (w : W) (x : Way) (bs : List Byte) :
    (W.askWrite w x bs).1.s.mem = w.s.mem ∧ (W.askWrite w x bs).1.s.pending = w.s.pending := by
  simp only [W.askWrite]; (repeat' split) <;> simp

@[simp] theorem W.askWrite_still (w : W) (x : Way) (bs : List Byte) :
    (W.askWrite w x bs).1.s.pk = w.s.pk ∧ (W.askWrite w x bs).1.s.sec = w.s.sec := by
  simp only [W.askWrite]; (repeat' split) <;> simp

@[simp] theorem W.leave64_frame (w : W) (a : Nat) (bs : List Byte) :
    (W.leave64 w a bs).1.s.mem = w.s.mem ∧ (W.leave64 w a bs).1.s.pending = w.s.pending := by
  simp only [W.leave64]; (repeat' split) <;> simp

@[simp] theorem W.leave64_still (w : W) (a : Nat) (bs : List Byte) :
    (W.leave64 w a bs).1.s.pk = w.s.pk ∧ (W.leave64 w a bs).1.s.sec = w.s.sec := by
  simp only [W.leave64]; (repeat' split) <;> simp

@[simp] theorem State.sliceIn_frame (s : State) (off n : Nat) :
    (State.sliceIn s off n).mem = s.mem ∧ (State.sliceIn s off n).pending = s.pending := by
  simp [State.sliceIn]

@[simp] theorem State.sliceIn_still (s : State) (off n : Nat) :
    (State.sliceIn s off n).pk = s.pk ∧ (State.sliceIn s off n).sec = s.sec := by
  simp [State.sliceIn]

@[simp] theorem State.wakeCluster_frame (s : State) (k : Nat) :
    (State.wakeCluster s k).mem = s.mem ∧ (State.wakeCluster s k).pending = s.pending := by
  simp only [State.wakeCluster]; (repeat' split) <;> simp

@[simp] theorem State.wakeCluster_still (s : State) (k : Nat) :
    (State.wakeCluster s k).pk = s.pk ∧ (State.wakeCluster s k).sec = s.sec := by
  simp only [State.wakeCluster]; (repeat' split) <;> simp

@[simp] theorem W.write64_pending (w : W) (a : Nat) (bs : List Byte) :
    (W.write64 w a bs).1.s.pending = w.s.pending := by
  simp only [W.write64]; (repeat' split) <;> simp

@[simp] theorem W.write64_ok (w : W) (a : Nat) (bs : List Byte) (h : w.s.mem.ok = true) :
    (W.write64 w a bs).1.s.mem.ok = true := by
  simp only [W.write64]; (repeat' split) <;> simp [h]

@[simp] theorem W.write64_still (w : W) (a : Nat) (bs : List Byte) :
    (W.write64 w a bs).1.s.pk = w.s.pk ∧ (W.write64 w a bs).1.s.sec = w.s.sec := by
  simp only [W.write64]; (repeat' split) <;> simp

@[simp] theorem State.faultLost_frame (s : State) (r : Region) :
    (State.faultLost s r).mem = s.mem ∧ (State.faultLost s r).pending = s.pending := by
  simp [State.faultLost]

@[simp] theorem State.faultLost_still (s : State) (r : Region) :
    (State.faultLost s r).pk = s.pk ∧ (State.faultLost s r).sec = s.sec := by
  simp [State.faultLost]

@[simp] theorem W.bell_frame (w : W) (a : Nat) (v : W64) :
    (W.bell w a v).s.mem = w.s.mem ∧ (W.bell w a v).s.pending = w.s.pending := by
  simp only [W.bell]; (repeat' split) <;> simp

@[simp] theorem W.bell_still (w : W) (a : Nat) (v : W64) :
    (W.bell w a v).s.pk = w.s.pk ∧ (W.bell w a v).s.sec = w.s.sec := by
  simp only [W.bell]; (repeat' split) <;> simp

@[simp] theorem W.fault_pending (w : W) (r : Region) (f : FaultRec) :
    (W.fault w r f).s.pending = w.s.pending := by
  simp only [W.fault]; (repeat' split) <;> simp

@[simp] theorem W.fault_ok (w : W) (r : Region) (f : FaultRec) (h : w.s.mem.ok = true) :
    (W.fault w r f).s.mem.ok = true := by
  simp only [W.fault]; (repeat' split) <;> simp [h]

@[simp] theorem W.fault_still (w : W) (r : Region) (f : FaultRec) :
    (W.fault w r f).s.pk = w.s.pk ∧ (W.fault w r f).s.sec = w.s.sec := by
  simp only [W.fault]; (repeat' split) <;> simp

@[simp] theorem W.checkBlock_pending (w : W) (b : Nat) :
    (W.checkBlock w b).1.s.pending = w.s.pending := by
  simp only [W.checkBlock]; (repeat' split) <;> simp

@[simp] theorem W.checkBlock_ok (w : W) (b : Nat) (h : w.s.mem.ok = true) :
    (W.checkBlock w b).1.s.mem.ok = true := by
  simp only [W.checkBlock]; (repeat' split) <;> simp [h]

@[simp] theorem W.checkBlock_still (w : W) (b : Nat) :
    (W.checkBlock w b).1.s.pk = w.s.pk ∧ (W.checkBlock w b).1.s.sec = w.s.sec := by
  simp only [W.checkBlock]; (repeat' split) <;> simp

@[simp] theorem W.checkBlocks_pending (w : W) (b x2 : Nat) :
    (W.checkBlocks w b x2).1.s.pending = w.s.pending := by
  induction x2 generalizing w b with
  | zero => first | rfl | exact ⟨rfl, rfl⟩ | simp [W.checkBlocks]
  | succ n ih => simp only [W.checkBlocks]; (repeat' split) <;> simp (maxDischargeDepth := 20) [ih]

@[simp] theorem W.checkBlocks_ok (w : W) (b x2 : Nat) (h : w.s.mem.ok = true) :
    (W.checkBlocks w b x2).1.s.mem.ok = true := by
  induction x2 generalizing w b with
  | zero => first | exact h | simp [W.checkBlocks, h]
  | succ n ih => simp only [W.checkBlocks]; (repeat' split) <;> simp (maxDischargeDepth := 20) [ih, h]

@[simp] theorem W.checkBlocks_still (w : W) (b x2 : Nat) :
    (W.checkBlocks w b x2).1.s.pk = w.s.pk ∧ (W.checkBlocks w b x2).1.s.sec = w.s.sec := by
  induction x2 generalizing w b with
  | zero => first | rfl | exact ⟨rfl, rfl⟩ | simp [W.checkBlocks]
  | succ n ih => simp only [W.checkBlocks]; (repeat' split) <;> simp (maxDischargeDepth := 20) [ih]

@[simp] theorem W.lagoonRead_pending (w : W) (off n : Nat) :
    (W.lagoonRead w off n).1.s.pending = w.s.pending := by
  simp only [W.lagoonRead]; (repeat' split) <;> simp

@[simp] theorem W.lagoonRead_ok (w : W) (off n : Nat) (h : w.s.mem.ok = true) :
    (W.lagoonRead w off n).1.s.mem.ok = true := by
  simp only [W.lagoonRead]; (repeat' split) <;> simp [h]

@[simp] theorem W.lagoonRead_still (w : W) (off n : Nat) :
    (W.lagoonRead w off n).1.s.pk = w.s.pk ∧ (W.lagoonRead w off n).1.s.sec = w.s.sec := by
  simp only [W.lagoonRead]; (repeat' split) <;> simp

@[simp] theorem W.blockWrite_pending (w0 : W) (off : Nat) (bs : List Byte) :
    (W.blockWrite w0 off bs).1.s.pending = w0.s.pending := by
  simp only [W.blockWrite]; (repeat' split) <;> simp

@[simp] theorem W.blockWrite_ok (w0 : W) (off : Nat) (bs : List Byte) (h : w0.s.mem.ok = true) :
    (W.blockWrite w0 off bs).1.s.mem.ok = true := by
  simp only [W.blockWrite]; (repeat' split) <;> simp [h]

@[simp] theorem W.blockWrite_still (w0 : W) (off : Nat) (bs : List Byte) :
    (W.blockWrite w0 off bs).1.s.pk = w0.s.pk ∧ (W.blockWrite w0 off bs).1.s.sec = w0.s.sec := by
  simp only [W.blockWrite]; (repeat' split) <;> simp

@[simp] theorem W.lagoonWrite_pending (w : W) (off : Nat) (bs : List Byte) (x3 : Nat) :
    (W.lagoonWrite w off bs x3).1.s.pending = w.s.pending := by
  induction x3 generalizing w off bs with
  | zero => first | rfl | exact ⟨rfl, rfl⟩ | simp [W.lagoonWrite]
  | succ n ih => simp only [W.lagoonWrite]; (repeat' split) <;> simp (maxDischargeDepth := 20) [ih]

@[simp] theorem W.lagoonWrite_ok (w : W) (off : Nat) (bs : List Byte) (x3 : Nat) (h : w.s.mem.ok = true) :
    (W.lagoonWrite w off bs x3).1.s.mem.ok = true := by
  induction x3 generalizing w off bs with
  | zero => first | exact h | simp [W.lagoonWrite, h]
  | succ n ih => simp only [W.lagoonWrite]; (repeat' split) <;> simp (maxDischargeDepth := 20) [ih, h]

@[simp] theorem W.lagoonWrite_still (w : W) (off : Nat) (bs : List Byte) (x3 : Nat) :
    (W.lagoonWrite w off bs x3).1.s.pk = w.s.pk ∧ (W.lagoonWrite w off bs x3).1.s.sec = w.s.sec := by
  induction x3 generalizing w off bs with
  | zero => first | rfl | exact ⟨rfl, rfl⟩ | simp [W.lagoonWrite]
  | succ n ih => simp only [W.lagoonWrite]; (repeat' split) <;> simp (maxDischargeDepth := 20) [ih]

@[simp] theorem W.shoalRead_pending (w : W) (k : Fin 64) (off n : Nat) :
    (W.shoalRead w k off n).1.s.pending = w.s.pending := by
  simp only [W.shoalRead]; (repeat' split) <;> simp

@[simp] theorem W.shoalRead_ok (w : W) (k : Fin 64) (off n : Nat) (h : w.s.mem.ok = true) :
    (W.shoalRead w k off n).1.s.mem.ok = true := by
  simp only [W.shoalRead]; (repeat' split) <;> simp [h]

@[simp] theorem W.shoalRead_still (w : W) (k : Fin 64) (off n : Nat) :
    (W.shoalRead w k off n).1.s.pk = w.s.pk ∧ (W.shoalRead w k off n).1.s.sec = w.s.sec := by
  simp only [W.shoalRead]; (repeat' split) <;> simp

@[simp] theorem W.accessFault_pending (w : W) (who : Who) (cause a : Nat) :
    (W.accessFault w who cause a).s.pending = w.s.pending := by
  simp [W.accessFault]

@[simp] theorem W.accessFault_ok (w : W) (who : Who) (cause a : Nat) (h : w.s.mem.ok = true) :
    (W.accessFault w who cause a).s.mem.ok = true := by
  simp [W.accessFault, h]

@[simp] theorem W.accessFault_still (w : W) (who : Who) (cause a : Nat) :
    (W.accessFault w who cause a).s.pk = w.s.pk ∧ (W.accessFault w who cause a).s.sec = w.s.sec := by
  simp [W.accessFault]

@[simp] theorem W.refuse_pending (w : W) (dir hit : Bool) (win : Nat) (p : Port) (a : Nat) :
    (W.refuse w dir hit win p a).s.pending = w.s.pending := by
  simp [W.refuse]

@[simp] theorem W.refuse_ok (w : W) (dir hit : Bool) (win : Nat) (p : Port) (a : Nat) (h : w.s.mem.ok = true) :
    (W.refuse w dir hit win p a).s.mem.ok = true := by
  simp [W.refuse, h]

@[simp] theorem W.refuse_still (w : W) (dir hit : Bool) (win : Nat) (p : Port) (a : Nat) :
    (W.refuse w dir hit win p a).s.pk = w.s.pk ∧ (W.refuse w dir hit win p a).s.sec = w.s.sec := by
  simp [W.refuse]

@[simp] theorem W.exit_pending (w : W) (a : Nat) (k : Access) :
    (W.exit w a k).1.s.pending = w.s.pending := by
  simp only [W.exit]; (repeat' split) <;> simp

@[simp] theorem W.exit_ok (w : W) (a : Nat) (k : Access) (h : w.s.mem.ok = true) :
    (W.exit w a k).1.s.mem.ok = true := by
  simp only [W.exit]; (repeat' split) <;> simp [h]

@[simp] theorem W.exit_still (w : W) (a : Nat) (k : Access) :
    (W.exit w a k).1.s.pk = w.s.pk ∧ (W.exit w a k).1.s.sec = w.s.sec := by
  simp only [W.exit]; (repeat' split) <;> simp

@[simp] theorem W.farRead_pending (w : W) (a : Nat) (x2 : List (Nat × Nat)) :
    (W.farRead w a x2).1.s.pending = w.s.pending := by
  induction x2 generalizing w a with
  | nil => first | rfl | exact ⟨rfl, rfl⟩ | simp [W.farRead]
  | cons y ys ih => simp only [W.farRead]; (repeat' split) <;> simp (maxDischargeDepth := 20) [ih]

@[simp] theorem W.farRead_ok (w : W) (a : Nat) (x2 : List (Nat × Nat)) (h : w.s.mem.ok = true) :
    (W.farRead w a x2).1.s.mem.ok = true := by
  induction x2 generalizing w a with
  | nil => first | exact h | simp [W.farRead, h]
  | cons y ys ih => simp only [W.farRead]; (repeat' split) <;> simp (maxDischargeDepth := 20) [ih, h]

@[simp] theorem W.farRead_still (w : W) (a : Nat) (x2 : List (Nat × Nat)) :
    (W.farRead w a x2).1.s.pk = w.s.pk ∧ (W.farRead w a x2).1.s.sec = w.s.sec := by
  induction x2 generalizing w a with
  | nil => first | rfl | exact ⟨rfl, rfl⟩ | simp [W.farRead]
  | cons y ys ih => simp only [W.farRead]; (repeat' split) <;> simp (maxDischargeDepth := 20) [ih]

@[simp] theorem W.farWrite_pending (w : W) (a : Nat) (bs : List Byte) (x3 : List (Nat × Nat)) :
    (W.farWrite w a bs x3).1.s.pending = w.s.pending := by
  induction x3 generalizing w a bs with
  | nil => first | rfl | exact ⟨rfl, rfl⟩ | simp [W.farWrite]
  | cons y ys ih => simp only [W.farWrite]; (repeat' split) <;> simp (maxDischargeDepth := 20) [ih]

@[simp] theorem W.farWrite_ok (w : W) (a : Nat) (bs : List Byte) (x3 : List (Nat × Nat)) (h : w.s.mem.ok = true) :
    (W.farWrite w a bs x3).1.s.mem.ok = true := by
  induction x3 generalizing w a bs with
  | nil => first | exact h | simp [W.farWrite, h]
  | cons y ys ih => simp only [W.farWrite]; (repeat' split) <;> simp (maxDischargeDepth := 20) [ih, h]

@[simp] theorem W.farWrite_still (w : W) (a : Nat) (bs : List Byte) (x3 : List (Nat × Nat)) :
    (W.farWrite w a bs x3).1.s.pk = w.s.pk ∧ (W.farWrite w a bs x3).1.s.sec = w.s.sec := by
  induction x3 generalizing w a bs with
  | nil => first | rfl | exact ⟨rfl, rfl⟩ | simp [W.farWrite]
  | cons y ys ih => simp only [W.farWrite]; (repeat' split) <;> simp (maxDischargeDepth := 20) [ih]

@[simp] theorem W.read_pending (w : W) (who : Who) (a n : Nat) :
    (W.read w who a n).1.s.pending = w.s.pending := by
  simp only [W.read]; (repeat' split) <;> simp

@[simp] theorem W.read_ok (w : W) (who : Who) (a n : Nat) (h : w.s.mem.ok = true) :
    (W.read w who a n).1.s.mem.ok = true := by
  simp only [W.read]; (repeat' split) <;> simp [h]

@[simp] theorem W.read_still (w : W) (who : Who) (a n : Nat) :
    (W.read w who a n).1.s.pk = w.s.pk ∧ (W.read w who a n).1.s.sec = w.s.sec := by
  simp only [W.read]; (repeat' split) <;> simp

@[simp] theorem W.shoalWrite_pending (w : W) (who : Who) (a k off : Nat) (bs : List Byte) :
    (W.shoalWrite w who a k off bs).s.pending = w.s.pending := by
  simp only [W.shoalWrite]; (repeat' split) <;> simp

@[simp] theorem W.shoalWrite_ok (w : W) (who : Who) (a k off : Nat) (bs : List Byte) (h : w.s.mem.ok = true) :
    (W.shoalWrite w who a k off bs).s.mem.ok = true := by
  simp only [W.shoalWrite]; (repeat' split) <;> simp [h]

@[simp] theorem W.shoalWrite_still (w : W) (who : Who) (a k off : Nat) (bs : List Byte) :
    (W.shoalWrite w who a k off bs).s.pk = w.s.pk ∧ (W.shoalWrite w who a k off bs).s.sec = w.s.sec := by
  simp only [W.shoalWrite]; (repeat' split) <;> simp

@[simp] theorem W.write_pending (w : W) (who : Who) (a : Nat) (bs : List Byte) :
    (W.write w who a bs).1.s.pending = w.s.pending := by
  simp only [W.write]; (repeat' split) <;> simp

@[simp] theorem W.write_ok (w : W) (who : Who) (a : Nat) (bs : List Byte) (h : w.s.mem.ok = true) :
    (W.write w who a bs).1.s.mem.ok = true := by
  simp only [W.write]; (repeat' split) <;> simp [h]

@[simp] theorem W.write_still (w : W) (who : Who) (a : Nat) (bs : List Byte) :
    (W.write w who a bs).1.s.pk = w.s.pk ∧ (W.write w who a bs).1.s.sec = w.s.sec := by
  simp only [W.write]; (repeat' split) <;> simp

@[simp] theorem W.readNat_pending (w : W) (who : Who) (a n : Nat) :
    (W.readNat w who a n).1.s.pending = w.s.pending := by
  simp [W.readNat]

@[simp] theorem W.readNat_ok (w : W) (who : Who) (a n : Nat) (h : w.s.mem.ok = true) :
    (W.readNat w who a n).1.s.mem.ok = true := by
  simp [W.readNat, h]

@[simp] theorem W.readNat_still (w : W) (who : Who) (a n : Nat) :
    (W.readNat w who a n).1.s.pk = w.s.pk ∧ (W.readNat w who a n).1.s.sec = w.s.sec := by
  simp [W.readNat]

@[simp] theorem State.fresh_frame (s : State) :
    (State.fresh s).1.mem = s.mem ∧ (State.fresh s).1.pending = s.pending := by
  simp [State.fresh]

@[simp] theorem State.fresh_still (s : State) :
    (State.fresh s).1.pk = s.pk ∧ (State.fresh s).1.sec = s.sec := by
  simp [State.fresh]

@[simp] theorem W.leadAppend_frame (w : W) (rec_ : List Byte) :
    (W.leadAppend w rec_).s.mem = w.s.mem ∧ (W.leadAppend w rec_).s.pending = w.s.pending := by
  simp only [W.leadAppend]; (repeat' split) <;> simp

@[simp] theorem W.leadAppend_still (w : W) (rec_ : List Byte) :
    (W.leadAppend w rec_).s.pk = w.s.pk ∧ (W.leadAppend w rec_).s.sec = w.s.sec := by
  simp only [W.leadAppend]; (repeat' split) <;> simp

@[simp] theorem W.append_frame (w : W) (rec_ : List Byte) :
    (W.append w rec_).s.mem = w.s.mem ∧ (W.append w rec_).s.pending = w.s.pending := by
  simp only [W.append]; (repeat' split) <;> simp

@[simp] theorem W.append_still (w : W) (rec_ : List Byte) :
    (W.append w rec_).s.pk = w.s.pk ∧ (W.append w rec_).s.sec = w.s.sec := by
  simp only [W.append]; (repeat' split) <;> simp

@[simp] theorem W.takeRecords_frame (w : W) :
    (W.takeRecords w).s.mem = w.s.mem ∧ (W.takeRecords w).s.pending = w.s.pending := by
  simp only [W.takeRecords]; (repeat' split) <;> simp

@[simp] theorem W.takeRecords_still (w : W) :
    (W.takeRecords w).s.pk = w.s.pk ∧ (W.takeRecords w).s.sec = w.s.sec := by
  simp only [W.takeRecords]; (repeat' split) <;> simp

@[simp] theorem W.halt_frame (w : W) (chip : BitVec 3) (code detail : Nat) :
    (W.halt w chip code detail).s.mem = w.s.mem ∧ (W.halt w chip code detail).s.pending = w.s.pending := by
  constructor <;> (simp only [W.halt]; (try simp only []); (repeat' (first
      | done
      | (simp (maxDischargeDepth := 20) +contextual ; done)
      | split
      | (simp (maxDischargeDepth := 20) +contextual ; split))))

@[simp] theorem W.halt_sec (w : W) (chip : BitVec 3) (code detail : Nat) :
    (W.halt w chip code detail).s.sec = w.s.sec := by
  simp only [W.halt]; (try simp only []); (repeat' (first
      | done
      | (simp (maxDischargeDepth := 20) +contextual ; done)
      | split
      | (simp (maxDischargeDepth := 20) +contextual ; split)))

@[simp] theorem W.halt_stepping (w : W) (chip : BitVec 3) (code detail : Nat) :
    (W.halt w chip code detail).s.pk.stepping = w.s.pk.stepping := by
  simp only [W.halt]; (try simp only []); (repeat' (first
      | done
      | (simp (maxDischargeDepth := 20) +contextual ; done)
      | split
      | (simp (maxDischargeDepth := 20) +contextual ; split)))

/-! ## Machine/LinkOps -/

@[simp] theorem State.sendOn_frame (s : State) (b : BundleNo) (type : Nat) (seq : BitVec 12) (f : TxFlit) :
    (State.sendOn s b type seq f).mem = s.mem ∧ (State.sendOn s b type seq f).pending = s.pending := by
  simp [State.sendOn]

@[simp] theorem State.sendOn_still (s : State) (b : BundleNo) (type : Nat) (seq : BitVec 12) (f : TxFlit) :
    (State.sendOn s b type seq f).pk = s.pk ∧ (State.sendOn s b type seq f).sec = s.sec := by
  simp [State.sendOn]

@[simp] theorem State.sendIdle_frame (s : State) (b : BundleNo) :
    (State.sendIdle s b).mem = s.mem ∧ (State.sendIdle s b).pending = s.pending := by
  simp [State.sendIdle]

@[simp] theorem State.sendIdle_still (s : State) (b : BundleNo) :
    (State.sendIdle s b).pk = s.pk ∧ (State.sendIdle s b).sec = s.sec := by
  simp [State.sendIdle]

@[simp] theorem State.sendCtrl_frame (s : State) (b : BundleNo) (msg : List Byte) :
    (State.sendCtrl s b msg).mem = s.mem ∧ (State.sendCtrl s b msg).pending = s.pending := by
  simp [State.sendCtrl]

@[simp] theorem State.sendCtrl_still (s : State) (b : BundleNo) (msg : List Byte) :
    (State.sendCtrl s b msg).pk = s.pk ∧ (State.sendCtrl s b msg).sec = s.sec := by
  simp [State.sendCtrl]

@[simp] theorem State.round_frame (s : State) (p : Port) :
    (State.round s p).mem = s.mem ∧ (State.round s p).pending = s.pending := by
  simp only [State.round]; (repeat' split) <;> simp

@[simp] theorem State.round_still (s : State) (p : Port) :
    (State.round s p).pk = s.pk ∧ (State.round s p).sec = s.sec := by
  simp only [State.round]; (repeat' split) <;> simp

@[simp] theorem State.sendData_frame (s : State) (b : BundleNo) (f : TxFlit) :
    (State.sendData s b f).mem = s.mem ∧ (State.sendData s b f).pending = s.pending := by
  simp [State.sendData]

@[simp] theorem State.sendData_still (s : State) (b : BundleNo) (f : TxFlit) :
    (State.sendData s b f).pk = s.pk ∧ (State.sendData s b f).sec = s.sec := by
  simp [State.sendData]

@[simp] theorem State.sendFlit_frame (s : State) (p : Port) (f : TxFlit) :
    (State.sendFlit s p f).mem = s.mem ∧ (State.sendFlit s p f).pending = s.pending := by
  simp only [State.sendFlit]; (repeat' split) <;> simp

@[simp] theorem State.sendFlit_still (s : State) (p : Port) (f : TxFlit) :
    (State.sendFlit s p f).pk = s.pk ∧ (State.sendFlit s p f).sec = s.sec := by
  simp only [State.sendFlit]; (repeat' split) <;> simp

@[simp] theorem State.drainPort_frame (s : State) (p : Port) :
    (State.drainPort s p).mem = s.mem ∧ (State.drainPort s p).pending = s.pending := by
  simp [State.drainPort]

@[simp] theorem State.drainPort_still (s : State) (p : Port) :
    (State.drainPort s p).pk = s.pk ∧ (State.drainPort s p).sec = s.sec := by
  simp [State.drainPort]

@[simp] theorem State.takeMsg_frame (s : State) (p : Port) (m : RxMsg → Bool) :
    (State.takeMsg s p m).mem = s.mem ∧ (State.takeMsg s p m).pending = s.pending := by
  simp [State.takeMsg]

@[simp] theorem State.takeMsg_still (s : State) (p : Port) (m : RxMsg → Bool) :
    (State.takeMsg s p m).pk = s.pk ∧ (State.takeMsg s p m).sec = s.sec := by
  simp [State.takeMsg]

@[simp] theorem State.takePayload_frame (s : State) (p : Port) (cls src id : Nat) :
    (State.takePayload s p cls src id).1.mem = s.mem ∧ (State.takePayload s p cls src id).1.pending = s.pending := by
  simp [State.takePayload]

@[simp] theorem State.takePayload_still (s : State) (p : Port) (cls src id : Nat) :
    (State.takePayload s p cls src id).1.pk = s.pk ∧ (State.takePayload s p cls src id).1.sec = s.sec := by
  simp [State.takePayload]

@[simp] theorem State.takeAck_frame (s : State) (b : BundleNo) (a : BitVec 12) :
    (State.takeAck s b a).mem = s.mem ∧ (State.takeAck s b a).pending = s.pending := by
  simp [State.takeAck]

@[simp] theorem State.takeAck_still (s : State) (b : BundleNo) (a : BitVec 12) :
    (State.takeAck s b a).pk = s.pk ∧ (State.takeAck s b a).sec = s.sec := by
  simp [State.takeAck]

@[simp] theorem State.replayHeld_frame (s : State) (b : BundleNo) :
    (State.replayHeld s b).mem = s.mem ∧ (State.replayHeld s b).pending = s.pending := by
  simp [State.replayHeld]

@[simp] theorem State.replayHeld_still (s : State) (b : BundleNo) :
    (State.replayHeld s b).pk = s.pk ∧ (State.replayHeld s b).sec = s.sec := by
  simp [State.replayHeld]

@[simp] theorem State.wantNak_frame (s : State) (b : BundleNo) :
    (State.wantNak s b).mem = s.mem ∧ (State.wantNak s b).pending = s.pending := by
  simp [State.wantNak]

@[simp] theorem State.wantNak_still (s : State) (b : BundleNo) :
    (State.wantNak s b).pk = s.pk ∧ (State.wantNak s b).sec = s.sec := by
  simp [State.wantNak]

@[simp] theorem State.takeCredits_frame (s : State) (p : Port) (proto : W64) :
    (State.takeCredits s p proto).mem = s.mem ∧ (State.takeCredits s p proto).pending = s.pending := by
  simp [State.takeCredits]

@[simp] theorem State.takeCredits_still (s : State) (p : Port) (proto : W64) :
    (State.takeCredits s p proto).pk = s.pk ∧ (State.takeCredits s p proto).sec = s.sec := by
  simp [State.takeCredits]

@[simp] theorem State.freeFlit_frame (s : State) (p : Port) (c : Fin 3) :
    (State.freeFlit s p c).mem = s.mem ∧ (State.freeFlit s p c).pending = s.pending := by
  simp [State.freeFlit]

@[simp] theorem State.freeFlit_still (s : State) (p : Port) (c : Fin 3) :
    (State.freeFlit s p c).pk = s.pk ∧ (State.freeFlit s p c).sec = s.sec := by
  simp [State.freeFlit]

@[simp] theorem State.beginDiag_frame (s : State) (b : BundleNo) :
    (State.beginDiag s b).mem = s.mem ∧ (State.beginDiag s b).pending = s.pending := by
  simp only [State.beginDiag]; (repeat' split) <;> simp

@[simp] theorem State.beginDiag_still (s : State) (b : BundleNo) :
    (State.beginDiag s b).pk = s.pk ∧ (State.beginDiag s b).sec = s.sec := by
  simp only [State.beginDiag]; (repeat' split) <;> simp

@[simp] theorem State.replayOrDiag_frame (s : State) (b : BundleNo) :
    (State.replayOrDiag s b).mem = s.mem ∧ (State.replayOrDiag s b).pending = s.pending := by
  simp only [State.replayOrDiag]; (repeat' split) <;> simp

@[simp] theorem State.replayOrDiag_still (s : State) (b : BundleNo) :
    (State.replayOrDiag s b).pk = s.pk ∧ (State.replayOrDiag s b).sec = s.sec := by
  simp only [State.replayOrDiag]; (repeat' split) <;> simp

@[simp] theorem State.countRx_frame (s : State) (b : BundleNo) (set : Nat) :
    (State.countRx s b set).mem = s.mem ∧ (State.countRx s b set).pending = s.pending := by
  simp [State.countRx]

@[simp] theorem State.countRx_still (s : State) (b : BundleNo) (set : Nat) :
    (State.countRx s b set).pk = s.pk ∧ (State.countRx s b set).sec = s.sec := by
  simp [State.countRx]

@[simp] theorem State.countTx_frame (s : State) (b : BundleNo) (set : Nat) :
    (State.countTx s b set).mem = s.mem ∧ (State.countTx s b set).pending = s.pending := by
  simp [State.countTx]

@[simp] theorem State.countTx_still (s : State) (b : BundleNo) (set : Nat) :
    (State.countTx s b set).pk = s.pk ∧ (State.countTx s b set).sec = s.sec := by
  simp [State.countTx]

@[simp] theorem State.countNarrows_frame (s : State) (b : BundleNo) :
    (State.countNarrows s b).mem = s.mem ∧ (State.countNarrows s b).pending = s.pending := by
  simp [State.countNarrows]

@[simp] theorem State.countNarrows_still (s : State) (b : BundleNo) :
    (State.countNarrows s b).pk = s.pk ∧ (State.countNarrows s b).sec = s.sec := by
  simp [State.countNarrows]

@[simp] theorem State.drive_frame (s : State) (b : BundleNo) :
    (State.drive s b).mem = s.mem ∧ (State.drive s b).pending = s.pending := by
  simp [State.drive]

@[simp] theorem State.drive_still (s : State) (b : BundleNo) :
    (State.drive s b).pk = s.pk ∧ (State.drive s b).sec = s.sec := by
  simp [State.drive]

@[simp] theorem State.countSpares_frame (s : State) (b : BundleNo) (old new : LaneMap) :
    (State.countSpares s b old new).mem = s.mem ∧ (State.countSpares s b old new).pending = s.pending := by
  simp only [State.countSpares]; (repeat' split) <;> simp

@[simp] theorem State.countSpares_still (s : State) (b : BundleNo) (old new : LaneMap) :
    (State.countSpares s b old new).pk = s.pk ∧ (State.countSpares s b old new).sec = s.sec := by
  simp only [State.countSpares]; (repeat' split) <;> simp

@[simp] theorem State.laneTest_frame (s : State) (b : BundleNo) (found : BitVec 36) (clkOk : Bool) :
    (State.laneTest s b found clkOk).mem = s.mem ∧ (State.laneTest s b found clkOk).pending = s.pending := by
  simp only [State.laneTest]; (repeat' split) <;> simp

@[simp] theorem State.laneTest_still (s : State) (b : BundleNo) (found : BitVec 36) (clkOk : Bool) :
    (State.laneTest s b found clkOk).pk = s.pk ∧ (State.laneTest s b found clkOk).sec = s.sec := by
  simp only [State.laneTest]; (repeat' split) <;> simp

@[simp] theorem State.sendMap_frame (s : State) (b : BundleNo) :
    (State.sendMap s b).mem = s.mem ∧ (State.sendMap s b).pending = s.pending := by
  simp [State.sendMap]

@[simp] theorem State.sendMap_still (s : State) (b : BundleNo) :
    (State.sendMap s b).pk = s.pk ∧ (State.sendMap s b).sec = s.sec := by
  simp [State.sendMap]

@[simp] theorem State.sendCap_frame (s : State) (p : Port) :
    (State.sendCap s p).mem = s.mem ∧ (State.sendCap s p).pending = s.pending := by
  simp [State.sendCap]

@[simp] theorem State.sendCap_still (s : State) (p : Port) :
    (State.sendCap s p).pk = s.pk ∧ (State.sendCap s p).sec = s.sec := by
  simp [State.sendCap]

@[simp] theorem State.settlePort_frame (s : State) (p : Port) :
    (State.settlePort s p).mem = s.mem ∧ (State.settlePort s p).pending = s.pending := by
  simp only [State.settlePort]; (repeat' split) <;> simp

@[simp] theorem State.settlePort_still (s : State) (p : Port) :
    (State.settlePort s p).pk = s.pk ∧ (State.settlePort s p).sec = s.sec := by
  simp only [State.settlePort]; (repeat' split) <;> simp

@[simp] theorem State.retireAtStart_frame (s : State) (b : BundleNo) :
    (State.retireAtStart s b).mem = s.mem ∧ (State.retireAtStart s b).pending = s.pending := by
  simp [State.retireAtStart]

@[simp] theorem State.retireAtStart_still (s : State) (b : BundleNo) :
    (State.retireAtStart s b).pk = s.pk ∧ (State.retireAtStart s b).sec = s.sec := by
  simp [State.retireAtStart]

@[simp] theorem State.beginSync_frame (s : State) (b : BundleNo) :
    (State.beginSync s b).mem = s.mem ∧ (State.beginSync s b).pending = s.pending := by
  simp [State.beginSync]

@[simp] theorem State.beginSync_still (s : State) (b : BundleNo) :
    (State.beginSync s b).pk = s.pk ∧ (State.beginSync s b).sec = s.sec := by
  simp [State.beginSync]

@[simp] theorem State.portRests_frame (s : State) (p : Port) :
    (State.portRests s p).mem = s.mem ∧ (State.portRests s p).pending = s.pending := by
  simp only [State.portRests]; (repeat' split) <;> simp

@[simp] theorem State.portRests_still (s : State) (p : Port) :
    (State.portRests s p).pk = s.pk ∧ (State.portRests s p).sec = s.sec := by
  simp only [State.portRests]; (repeat' split) <;> simp

@[simp] theorem State.goUp_frame (s : State) (b : BundleNo) :
    (State.goUp s b).mem = s.mem ∧ (State.goUp s b).pending = s.pending := by
  simp only [State.goUp]; (repeat' split) <;> simp

@[simp] theorem State.goUp_still (s : State) (b : BundleNo) :
    (State.goUp s b).pk = s.pk ∧ (State.goUp s b).sec = s.sec := by
  simp only [State.goUp]; (repeat' split) <;> simp

/-! ## Machine/InstOps -/

@[simp] theorem W.commandFault_pending (w : W) (r : Region) (cause : Nat) (st : Status) (ring : RingNo)
    (a inst : Nat) :
    (W.commandFault w r cause st ring a inst).s.pending = w.s.pending := by
  simp [W.commandFault]

@[simp] theorem W.commandFault_ok (w : W) (r : Region) (cause : Nat) (st : Status) (ring : RingNo) (a inst : Nat)
    (h : w.s.mem.ok = true) :
    (W.commandFault w r cause st ring a inst).s.mem.ok = true := by
  simp [W.commandFault, h]

@[simp] theorem W.commandFault_still (w : W) (r : Region) (cause : Nat) (st : Status) (ring : RingNo) (a inst : Nat) :
    (W.commandFault w r cause st ring a inst).s.pk = w.s.pk ∧
      (W.commandFault w r cause st ring a inst).s.sec = w.s.sec := by
  simp [W.commandFault]

@[simp] theorem W.retire_pending (w : W) (r : Region) (f : RecRef) (status : W64) :
    (W.retire w r f status).s.pending = w.s.pending := by
  simp only [W.retire]; (repeat' split) <;> simp

@[simp] theorem W.retire_ok (w : W) (r : Region) (f : RecRef) (status : W64) (h : w.s.mem.ok = true) :
    (W.retire w r f status).s.mem.ok = true := by
  simp only [W.retire]; (repeat' split) <;> simp [h]

@[simp] theorem W.retire_still (w : W) (r : Region) (f : RecRef) (status : W64) :
    (W.retire w r f status).s.pk = w.s.pk ∧ (W.retire w r f status).s.sec = w.s.sec := by
  simp only [W.retire]; (repeat' split) <;> simp

@[simp] theorem W.retireInst_pending (w : W) (r : Region) (k : SlotNo) (f : RecRef) (code detail : Nat) :
    (W.retireInst w r k f code detail).s.pending = w.s.pending := by
  simp [W.retireInst]

@[simp] theorem W.retireInst_ok (w : W) (r : Region) (k : SlotNo) (f : RecRef) (code detail : Nat)
    (h : w.s.mem.ok = true) :
    (W.retireInst w r k f code detail).s.mem.ok = true := by
  simp [W.retireInst, h]

@[simp] theorem W.retireInst_still (w : W) (r : Region) (k : SlotNo) (f : RecRef) (code detail : Nat) :
    (W.retireInst w r k f code detail).s.pk = w.s.pk ∧ (W.retireInst w r k f code detail).s.sec = w.s.sec := by
  simp [W.retireInst]

@[simp] theorem W.writeInstStatus_pending (w : W) (r : Region) (k : SlotNo) :
    (W.writeInstStatus w r k).1.s.pending = w.s.pending := by
  simp only [W.writeInstStatus]; (repeat' split) <;> simp

@[simp] theorem W.writeInstStatus_ok (w : W) (r : Region) (k : SlotNo) (h : w.s.mem.ok = true) :
    (W.writeInstStatus w r k).1.s.mem.ok = true := by
  simp only [W.writeInstStatus]; (repeat' split) <;> simp [h]

@[simp] theorem W.writeInstStatus_still (w : W) (r : Region) (k : SlotNo) :
    (W.writeInstStatus w r k).1.s.pk = w.s.pk ∧ (W.writeInstStatus w r k).1.s.sec = w.s.sec := by
  simp only [W.writeInstStatus]; (repeat' split) <;> simp

@[simp] theorem State.dropStaging_frame (s : State) (r : Region) (k : SlotNo) :
    (State.dropStaging s r k).mem = s.mem ∧ (State.dropStaging s r k).pending = s.pending := by
  simp [State.dropStaging]

@[simp] theorem State.dropStaging_still (s : State) (r : Region) (k : SlotNo) :
    (State.dropStaging s r k).pk = s.pk ∧ (State.dropStaging s r k).sec = s.sec := by
  simp [State.dropStaging]

@[simp] theorem State.restStaging_frame (s : State) (r : Region) (k : SlotNo) :
    (State.restStaging s r k).mem = s.mem ∧ (State.restStaging s r k).pending = s.pending := by
  simp [State.restStaging]

@[simp] theorem State.restStaging_still (s : State) (r : Region) (k : SlotNo) :
    (State.restStaging s r k).pk = s.pk ∧ (State.restStaging s r k).sec = s.sec := by
  simp [State.restStaging]

@[simp] theorem State.tell_frame (s : State) (r : Region) (k : SlotNo) (w : InstWord) :
    (State.tell s r k w).mem = s.mem ∧ (State.tell s r k w).pending = s.pending := by
  simp only [State.tell]; (repeat' split) <;> simp

@[simp] theorem State.tell_still (s : State) (r : Region) (k : SlotNo) (w : InstWord) :
    (State.tell s r k w).pk = s.pk ∧ (State.tell s r k w).sec = s.sec := by
  simp only [State.tell]; (repeat' split) <;> simp

@[simp] theorem W.enter_pending (w : W) (r : Region) (k : SlotNo) (st : InstState) (reason : BitVec 4) :
    (W.enter w r k st reason).s.pending = w.s.pending := by
  simp only [W.enter]; (repeat' split) <;> simp

@[simp] theorem W.enter_ok (w : W) (r : Region) (k : SlotNo) (st : InstState) (reason : BitVec 4)
    (h : w.s.mem.ok = true) :
    (W.enter w r k st reason).s.mem.ok = true := by
  simp only [W.enter]; (repeat' split) <;> simp (maxDischargeDepth := 20) +contextual [h]

@[simp] theorem W.enter_still (w : W) (r : Region) (k : SlotNo) (st : InstState) (reason : BitVec 4) :
    (W.enter w r k st reason).s.pk = w.s.pk ∧ (W.enter w r k st reason).s.sec = w.s.sec := by
  simp only [W.enter]; (repeat' split) <;> simp

@[simp] theorem State.faultInst_frame (s : State) (r : Region) (k : SlotNo) (reason : BitVec 4) :
    (State.faultInst s r k reason).mem = s.mem ∧ (State.faultInst s r k reason).pending = s.pending := by
  simp only [State.faultInst]; (repeat' split) <;> simp

@[simp] theorem State.faultInst_still (s : State) (r : Region) (k : SlotNo) (reason : BitVec 4) :
    (State.faultInst s r k reason).pk = s.pk ∧ (State.faultInst s r k reason).sec = s.sec := by
  simp only [State.faultInst]; (repeat' split) <;> simp

@[simp] theorem State.releaseClusters_frame (s : State) (r : Region) (k : SlotNo) :
    (State.releaseClusters s r k).mem = s.mem ∧ (State.releaseClusters s r k).pending = s.pending := by
  simp [State.releaseClusters]

@[simp] theorem State.releaseClusters_still (s : State) (r : Region) (k : SlotNo) :
    (State.releaseClusters s r k).pk = s.pk ∧ (State.releaseClusters s r k).sec = s.sec := by
  simp [State.releaseClusters]

@[simp] theorem State.faultUsers_frame (s : State) (p : Port) :
    (State.faultUsers s p).mem = s.mem ∧ (State.faultUsers s p).pending = s.pending := by
  constructor <;> (simp only [State.faultUsers]; (try simp only []); (repeat' (first
      | done
      | (simp (maxDischargeDepth := 20) +contextual ; done)
      | with_reducible refine foldl_mem _ (fun _ _ => ?_) _ _
      | with_reducible refine foldl_pending _ (fun _ _ => ?_) _ _
      | split)))

@[simp] theorem State.faultUsers_still (s : State) (p : Port) :
    (State.faultUsers s p).pk = s.pk ∧ (State.faultUsers s p).sec = s.sec := by
  constructor <;> (simp only [State.faultUsers]; (try simp only []); (repeat' (first
      | done
      | (simp (maxDischargeDepth := 20) +contextual ; done)
      | with_reducible refine foldl_pk _ (fun _ _ => ?_) _ _
      | with_reducible refine foldl_sec _ (fun _ _ => ?_) _ _
      | split)))

/-! ## Machine/ReqOps -/

@[simp] theorem State.putRequest_frame (s : State) (x : Post) (id : BitVec 14) :
    (State.putRequest s x id).mem = s.mem ∧ (State.putRequest s x id).pending = s.pending := by
  simp only [State.putRequest]; (repeat' split) <;> simp

@[simp] theorem State.putRequest_still (s : State) (x : Post) (id : BitVec 14) :
    (State.putRequest s x id).pk = s.pk ∧ (State.putRequest s x id).sec = s.sec := by
  simp only [State.putRequest]; (repeat' split) <;> simp

@[simp] theorem State.sendRead_frame (s : State) (x : Post) (tag : BitVec 14) :
    (State.sendRead s x tag).mem = s.mem ∧ (State.sendRead s x tag).pending = s.pending := by
  simp [State.sendRead]

@[simp] theorem State.sendRead_still (s : State) (x : Post) (tag : BitVec 14) :
    (State.sendRead s x tag).pk = s.pk ∧ (State.sendRead s x tag).sec = s.sec := by
  simp [State.sendRead]

@[simp] theorem State.sendWrite_frame (s : State) (x : Post) (id : BitVec 14) :
    (State.sendWrite s x id).mem = s.mem ∧ (State.sendWrite s x id).pending = s.pending := by
  simp [State.sendWrite]

@[simp] theorem State.sendWrite_still (s : State) (x : Post) (id : BitVec 14) :
    (State.sendWrite s x id).pk = s.pk ∧ (State.sendWrite s x id).sec = s.sec := by
  simp [State.sendWrite]

@[simp] theorem State.post_frame (s : State) (x : Post) :
    (State.post s x).mem = s.mem ∧ (State.post s x).pending = s.pending := by
  simp only [State.post]; (repeat' split) <;> simp

@[simp] theorem State.post_still (s : State) (x : Post) :
    (State.post s x).pk = s.pk ∧ (State.post s x).sec = s.sec := by
  simp only [State.post]; (repeat' split) <;> simp

@[simp] theorem State.postWaiting_frame (s : State) :
    (State.postWaiting s).mem = s.mem ∧ (State.postWaiting s).pending = s.pending := by
  simp [State.postWaiting]

@[simp] theorem State.postWaiting_still (s : State) :
    (State.postWaiting s).pk = s.pk ∧ (State.postWaiting s).sec = s.sec := by
  simp [State.postWaiting]

@[simp] theorem State.postWay_frame (s : State) (x : Way) (op atop len : Nat) (data : List Byte) (op0 op1 : W64)
    (u : Purpose) :
    (State.postWay s x op atop len data op0 op1 u).mem = s.mem ∧
      (State.postWay s x op atop len data op0 op1 u).pending = s.pending := by
  simp [State.postWay]

@[simp] theorem State.postWay_still (s : State) (x : Way) (op atop len : Nat) (data : List Byte) (op0 op1 : W64)
    (u : Purpose) :
    (State.postWay s x op atop len data op0 op1 u).pk = s.pk ∧
      (State.postWay s x op atop len data op0 op1 u).sec = s.sec := by
  simp [State.postWay]

/-! ## Machine/FerryOps -/

@[simp] theorem State.onLoaded_frame (s : State) (r : Region) (id : Nat) (f : LoadedCtx → LoadedCtx) :
    (State.onLoaded s r id f).mem = s.mem ∧ (State.onLoaded s r id f).pending = s.pending := by
  simp [State.onLoaded]

@[simp] theorem State.onLoaded_still (s : State) (r : Region) (id : Nat) (f : LoadedCtx → LoadedCtx) :
    (State.onLoaded s r id f).pk = s.pk ∧ (State.onLoaded s r id f).sec = s.sec := by
  simp [State.onLoaded]

@[simp] theorem State.unload_frame (s : State) (r : Region) (id : Nat) :
    (State.unload s r id).mem = s.mem ∧ (State.unload s r id).pending = s.pending := by
  simp [State.unload]

@[simp] theorem State.unload_still (s : State) (r : Region) (id : Nat) :
    (State.unload s r id).pk = s.pk ∧ (State.unload s r id).sec = s.sec := by
  simp [State.unload]

@[simp] theorem W.recUpdate_pending (w : W) (who : Who) (a : Nat) (u : RecAdd) :
    (W.recUpdate w who a u).s.pending = w.s.pending := by
  simp only [W.recUpdate]; (repeat' split) <;> simp

@[simp] theorem W.recUpdate_ok (w : W) (who : Who) (a : Nat) (u : RecAdd) (h : w.s.mem.ok = true) :
    (W.recUpdate w who a u).s.mem.ok = true := by
  simp only [W.recUpdate]; (repeat' split) <;> simp [h]

@[simp] theorem W.recUpdate_still (w : W) (who : Who) (a : Nat) (u : RecAdd) :
    (W.recUpdate w who a u).s.pk = w.s.pk ∧ (W.recUpdate w who a u).s.sec = w.s.sec := by
  simp only [W.recUpdate]; (repeat' split) <;> simp

@[simp] theorem State.noteCur_pending (s : State) (r : Region) (id : Nat) :
    (State.noteCur s r id).pending = s.pending := by
  simp only [State.noteCur]; (repeat' split) <;> simp

@[simp] theorem State.noteCur_ok (s : State) (r : Region) (id : Nat) (h : s.mem.ok = true) :
    (State.noteCur s r id).mem.ok = true := by
  simp only [State.noteCur]; (repeat' split) <;> simp [h]

@[simp] theorem State.noteCur_still (s : State) (r : Region) (id : Nat) :
    (State.noteCur s r id).pk = s.pk ∧ (State.noteCur s r id).sec = s.sec := by
  simp only [State.noteCur]; (repeat' split) <;> simp

@[simp] theorem W.ctxError_pending (w : W) (r : Region) (id cause : Nat) :
    (W.ctxError w r id cause).s.pending = w.s.pending := by
  simp only [W.ctxError]; (repeat' split) <;> simp

@[simp] theorem W.ctxError_ok (w : W) (r : Region) (id cause : Nat) (h : w.s.mem.ok = true) :
    (W.ctxError w r id cause).s.mem.ok = true := by
  simp only [W.ctxError]; (repeat' split) <;> simp (maxDischargeDepth := 20) +contextual [h]

@[simp] theorem W.ctxError_still (w : W) (r : Region) (id cause : Nat) :
    (W.ctxError w r id cause).s.pk = w.s.pk ∧ (W.ctxError w r id cause).s.sec = w.s.sec := by
  simp only [W.ctxError]; (repeat' split) <;> simp

@[simp] theorem State.noteCopies_frame (s : State) (x : Region) (n : Nat) :
    (State.noteCopies s x n).mem = s.mem ∧ (State.noteCopies s x n).pending = s.pending := by
  simp only [State.noteCopies]; (repeat' split) <;> simp

@[simp] theorem State.noteCopies_still (s : State) (x : Region) (n : Nat) :
    (State.noteCopies s x n).pk = s.pk ∧ (State.noteCopies s x n).sec = s.sec := by
  simp only [State.noteCopies]; (repeat' split) <;> simp

@[simp] theorem State.countCopies_frame (s : State) (src : Region) (c : FerryCtx) (dests : List Nat) :
    (State.countCopies s src c dests).mem = s.mem ∧ (State.countCopies s src c dests).pending = s.pending := by
  simp only [State.countCopies]; (repeat' split) <;> simp

@[simp] theorem State.countCopies_still (s : State) (src : Region) (c : FerryCtx) (dests : List Nat) :
    (State.countCopies s src c dests).pk = s.pk ∧ (State.countCopies s src c dests).sec = s.sec := by
  simp only [State.countCopies]; (repeat' split) <;> simp

@[simp] theorem W.sendPiece_pending (w : W) (r : Region) (id a : Nat) (bs : List Byte) :
    (W.sendPiece w r id a bs).1.s.pending = w.s.pending := by
  simp only [W.sendPiece]; (repeat' split) <;> simp

@[simp] theorem W.sendPiece_ok (w : W) (r : Region) (id a : Nat) (bs : List Byte) (h : w.s.mem.ok = true) :
    (W.sendPiece w r id a bs).1.s.mem.ok = true := by
  simp only [W.sendPiece]; (repeat' split) <;> simp [h]

@[simp] theorem W.sendPiece_still (w : W) (r : Region) (id a : Nat) (bs : List Byte) :
    (W.sendPiece w r id a bs).1.s.pk = w.s.pk ∧ (W.sendPiece w r id a bs).1.s.sec = w.s.sec := by
  simp only [W.sendPiece]; (repeat' split) <;> simp

@[simp] theorem W.sendPieces_pending (w : W) (r : Region) (id a : Nat) (bs : List Byte) (x5 : List (Nat × Nat)) :
    (W.sendPieces w r id a bs x5).1.s.pending = w.s.pending := by
  induction x5 generalizing w r id a bs with
  | nil => first | rfl | exact ⟨rfl, rfl⟩ | simp [W.sendPieces]
  | cons y ys ih => simp only [W.sendPieces]; (repeat' split) <;> simp (maxDischargeDepth := 20) [ih]

@[simp] theorem W.sendPieces_ok (w : W) (r : Region) (id a : Nat) (bs : List Byte) (x5 : List (Nat × Nat))
    (h : w.s.mem.ok = true) :
    (W.sendPieces w r id a bs x5).1.s.mem.ok = true := by
  induction x5 generalizing w r id a bs with
  | nil => first | exact h | simp [W.sendPieces, h]
  | cons y ys ih => simp only [W.sendPieces]; (repeat' split) <;> simp (maxDischargeDepth := 20) [ih, h]

@[simp] theorem W.sendPieces_still (w : W) (r : Region) (id a : Nat) (bs : List Byte) (x5 : List (Nat × Nat)) :
    (W.sendPieces w r id a bs x5).1.s.pk = w.s.pk ∧ (W.sendPieces w r id a bs x5).1.s.sec = w.s.sec := by
  induction x5 generalizing w r id a bs with
  | nil => first | rfl | exact ⟨rfl, rfl⟩ | simp [W.sendPieces]
  | cons y ys ih => simp only [W.sendPieces]; (repeat' split) <;> simp (maxDischargeDepth := 20) [ih]

@[simp] theorem W.ferryPut_pending (w : W) (r : Region) (c : LoadedCtx) (a : Nat) (bs : List Byte) :
    (W.ferryPut w r c a bs).1.s.pending = w.s.pending := by
  simp only [W.ferryPut]; (repeat' split) <;> simp

@[simp] theorem W.ferryPut_ok (w : W) (r : Region) (c : LoadedCtx) (a : Nat) (bs : List Byte)
    (h : w.s.mem.ok = true) :
    (W.ferryPut w r c a bs).1.s.mem.ok = true := by
  simp only [W.ferryPut]; (repeat' split) <;> simp [h]

@[simp] theorem W.ferryPut_still (w : W) (r : Region) (c : LoadedCtx) (a : Nat) (bs : List Byte) :
    (W.ferryPut w r c a bs).1.s.pk = w.s.pk ∧ (W.ferryPut w r c a bs).1.s.sec = w.s.sec := by
  simp only [W.ferryPut]; (repeat' split) <;> simp

@[simp] theorem W.ferryPutAll_pending (w : W) (r : Region) (c : LoadedCtx) (bs : List Byte) (x4 : List Nat) :
    (W.ferryPutAll w r c bs x4).1.s.pending = w.s.pending := by
  induction x4 generalizing w r c bs with
  | nil => first | rfl | exact ⟨rfl, rfl⟩ | simp [W.ferryPutAll]
  | cons y ys ih => simp only [W.ferryPutAll]; (repeat' split) <;> simp (maxDischargeDepth := 20) [ih]

@[simp] theorem W.ferryPutAll_ok (w : W) (r : Region) (c : LoadedCtx) (bs : List Byte) (x4 : List Nat)
    (h : w.s.mem.ok = true) :
    (W.ferryPutAll w r c bs x4).1.s.mem.ok = true := by
  induction x4 generalizing w r c bs with
  | nil => first | exact h | simp [W.ferryPutAll, h]
  | cons y ys ih => simp only [W.ferryPutAll]; (repeat' split) <;> simp (maxDischargeDepth := 20) [ih, h]

@[simp] theorem W.ferryPutAll_still (w : W) (r : Region) (c : LoadedCtx) (bs : List Byte) (x4 : List Nat) :
    (W.ferryPutAll w r c bs x4).1.s.pk = w.s.pk ∧ (W.ferryPutAll w r c bs x4).1.s.sec = w.s.sec := by
  induction x4 generalizing w r c bs with
  | nil => first | rfl | exact ⟨rfl, rfl⟩ | simp [W.ferryPutAll]
  | cons y ys ih => simp only [W.ferryPutAll]; (repeat' split) <;> simp (maxDischargeDepth := 20) [ih]

@[simp] theorem State.countBytes_frame (s : State) (r : Region) (c : LoadedCtx) (n : Nat) :
    (State.countBytes s r c n).mem = s.mem ∧ (State.countBytes s r c n).pending = s.pending := by
  simp only [State.countBytes]; (repeat' split) <;> simp

@[simp] theorem State.countBytes_still (s : State) (r : Region) (c : LoadedCtx) (n : Nat) :
    (State.countBytes s r c n).pk = s.pk ∧ (State.countBytes s r c n).sec = s.sec := by
  simp only [State.countBytes]; (repeat' split) <;> simp

@[simp] theorem W.putElems_pending (w : W) (r : Region) (c : LoadedCtx) (f : Fmt) (p j col0 : Nat) (es : List Nat) :
    (W.putElems w r c f p j col0 es).1.s.pending = w.s.pending := by
  simp only [W.putElems]; (repeat' split) <;> simp

@[simp] theorem W.putElems_ok (w : W) (r : Region) (c : LoadedCtx) (f : Fmt) (p j col0 : Nat) (es : List Nat)
    (h : w.s.mem.ok = true) :
    (W.putElems w r c f p j col0 es).1.s.mem.ok = true := by
  simp only [W.putElems]; (repeat' split) <;> simp [h]

@[simp] theorem W.putElems_still (w : W) (r : Region) (c : LoadedCtx) (f : Fmt) (p j col0 : Nat) (es : List Nat) :
    (W.putElems w r c f p j col0 es).1.s.pk = w.s.pk ∧ (W.putElems w r c f p j col0 es).1.s.sec = w.s.sec := by
  simp only [W.putElems]; (repeat' split) <;> simp

@[simp] theorem W.putRows_pending (w : W) (r : Region) (c : LoadedCtx) (f : Fmt) (p : Nat) (x5 : List
    (Nat × Nat × List Nat)) :
    (W.putRows w r c f p x5).1.s.pending = w.s.pending := by
  induction x5 generalizing w r c f p with
  | nil => first | rfl | exact ⟨rfl, rfl⟩ | simp [W.putRows]
  | cons y ys ih => simp only [W.putRows]; (repeat' split) <;> simp (maxDischargeDepth := 20) [ih]

@[simp] theorem W.putRows_ok (w : W) (r : Region) (c : LoadedCtx) (f : Fmt) (p : Nat) (x5 : List
    (Nat × Nat × List Nat)) (h : w.s.mem.ok = true) :
    (W.putRows w r c f p x5).1.s.mem.ok = true := by
  induction x5 generalizing w r c f p with
  | nil => first | exact h | simp [W.putRows, h]
  | cons y ys ih => simp only [W.putRows]; (repeat' split) <;> simp (maxDischargeDepth := 20) [ih, h]

@[simp] theorem W.putRows_still (w : W) (r : Region) (c : LoadedCtx) (f : Fmt) (p : Nat) (x5 : List
    (Nat × Nat × List Nat)) :
    (W.putRows w r c f p x5).1.s.pk = w.s.pk ∧ (W.putRows w r c f p x5).1.s.sec = w.s.sec := by
  induction x5 generalizing w r c f p with
  | nil => first | rfl | exact ⟨rfl, rfl⟩ | simp [W.putRows]
  | cons y ys ih => simp only [W.putRows]; (repeat' split) <;> simp (maxDischargeDepth := 20) [ih]

@[simp] theorem State.advance_pending (s : State) (r : Region) (id : Nat) (es : List Nat) :
    (State.advance s r id es).pending = s.pending := by
  simp only [State.advance]; (repeat' split) <;> simp

@[simp] theorem State.advance_ok (s : State) (r : Region) (id : Nat) (es : List Nat) (h : s.mem.ok = true) :
    (State.advance s r id es).mem.ok = true := by
  simp only [State.advance]; (repeat' split) <;> simp [h]

@[simp] theorem State.advance_still (s : State) (r : Region) (id : Nat) (es : List Nat) :
    (State.advance s r id es).pk = s.pk ∧ (State.advance s r id es).sec = s.sec := by
  simp only [State.advance]; (repeat' split) <;> simp

@[simp] theorem W.writeRow_pending (w : W) (r : Region) (id : Nat) (c : LoadedCtx) (f : Fmt) (es : List Nat) :
    (W.writeRow w r id c f es).s.pending = w.s.pending := by
  simp only [W.writeRow]; (repeat' split) <;> simp

@[simp] theorem W.writeRow_ok (w : W) (r : Region) (id : Nat) (c : LoadedCtx) (f : Fmt) (es : List Nat)
    (h : w.s.mem.ok = true) :
    (W.writeRow w r id c f es).s.mem.ok = true := by
  simp only [W.writeRow]; (repeat' split) <;> simp [h]

@[simp] theorem W.writeRow_still (w : W) (r : Region) (id : Nat) (c : LoadedCtx) (f : Fmt) (es : List Nat) :
    (W.writeRow w r id c f es).s.pk = w.s.pk ∧ (W.writeRow w r id c f es).s.sec = w.s.sec := by
  simp only [W.writeRow]; (repeat' split) <;> simp

@[simp] theorem W.nextRow_pending (w : W) (r : Region) (c : LoadedCtx) (f : Fmt) :
    (W.nextRow w r c f).1.s.pending = w.s.pending := by
  simp only [W.nextRow]; (repeat' split) <;> simp

@[simp] theorem W.nextRow_ok (w : W) (r : Region) (c : LoadedCtx) (f : Fmt) (h : w.s.mem.ok = true) :
    (W.nextRow w r c f).1.s.mem.ok = true := by
  simp only [W.nextRow]; (repeat' split) <;> simp [h]

@[simp] theorem W.nextRow_still (w : W) (r : Region) (c : LoadedCtx) (f : Fmt) :
    (W.nextRow w r c f).1.s.pk = w.s.pk ∧ (W.nextRow w r c f).1.s.sec = w.s.sec := by
  simp only [W.nextRow]; (repeat' split) <;> simp

@[simp] theorem W.pump_pending (w : W) (r : Region) (id x3 : Nat) :
    (W.pump w r id x3).s.pending = w.s.pending := by
  induction x3 generalizing w r id with
  | zero => first | rfl | exact ⟨rfl, rfl⟩ | simp [W.pump]
  | succ n ih => simp only [W.pump]; (repeat' split) <;> simp (maxDischargeDepth := 20) [ih]

@[simp] theorem W.pump_ok (w : W) (r : Region) (id x3 : Nat) (h : w.s.mem.ok = true) :
    (W.pump w r id x3).s.mem.ok = true := by
  induction x3 generalizing w r id with
  | zero => first | exact h | simp [W.pump, h]
  | succ n ih => simp only [W.pump]; (repeat' split) <;> simp (maxDischargeDepth := 20) [ih, h]

@[simp] theorem W.pump_still (w : W) (r : Region) (id x3 : Nat) :
    (W.pump w r id x3).s.pk = w.s.pk ∧ (W.pump w r id x3).s.sec = w.s.sec := by
  induction x3 generalizing w r id with
  | zero => first | rfl | exact ⟨rfl, rfl⟩ | simp [W.pump]
  | succ n ih => simp only [W.pump]; (repeat' split) <;> simp (maxDischargeDepth := 20) [ih]

@[simp] theorem W.padEmpty_pending (w : W) (r : Region) (c : LoadedCtx) (f : Fmt) (x4 : List Nat) :
    (W.padEmpty w r c f x4).1.s.pending = w.s.pending := by
  induction x4 generalizing w r c f with
  | nil => first | rfl | exact ⟨rfl, rfl⟩ | simp [W.padEmpty]
  | cons y ys ih => simp only [W.padEmpty]; (repeat' split) <;> simp (maxDischargeDepth := 20) [ih]

@[simp] theorem W.padEmpty_ok (w : W) (r : Region) (c : LoadedCtx) (f : Fmt) (x4 : List Nat) (h : w.s.mem.ok = true) :
    (W.padEmpty w r c f x4).1.s.mem.ok = true := by
  induction x4 generalizing w r c f with
  | nil => first | exact h | simp [W.padEmpty, h]
  | cons y ys ih => simp only [W.padEmpty]; (repeat' split) <;> simp (maxDischargeDepth := 20) [ih, h]

@[simp] theorem W.padEmpty_still (w : W) (r : Region) (c : LoadedCtx) (f : Fmt) (x4 : List Nat) :
    (W.padEmpty w r c f x4).1.s.pk = w.s.pk ∧ (W.padEmpty w r c f x4).1.s.sec = w.s.sec := by
  induction x4 generalizing w r c f with
  | nil => first | rfl | exact ⟨rfl, rfl⟩ | simp [W.padEmpty]
  | cons y ys ih => simp only [W.padEmpty]; (repeat' split) <;> simp (maxDischargeDepth := 20) [ih]

@[simp] theorem W.beginCtx_pending (w : W) (r : Region) (id : Nat) :
    (W.beginCtx w r id).s.pending = w.s.pending := by
  simp only [W.beginCtx]; (repeat' split) <;> simp

@[simp] theorem W.beginCtx_ok (w : W) (r : Region) (id : Nat) (h : w.s.mem.ok = true) :
    (W.beginCtx w r id).s.mem.ok = true := by
  simp only [W.beginCtx]; (repeat' split) <;> simp (maxDischargeDepth := 20) +contextual [h]

@[simp] theorem W.beginCtx_still (w : W) (r : Region) (id : Nat) :
    (W.beginCtx w r id).s.pk = w.s.pk ∧ (W.beginCtx w r id).s.sec = w.s.sec := by
  simp only [W.beginCtx]; (repeat' split) <;> simp

@[simp] theorem W.startCtx_pending (w : W) (r : Region) (n : Nat) :
    (W.startCtx w r n).s.pending = w.s.pending := by
  simp only [W.startCtx]; (repeat' split) <;> simp

@[simp] theorem W.startCtx_ok (w : W) (r : Region) (n : Nat) (h : w.s.mem.ok = true) :
    (W.startCtx w r n).s.mem.ok = true := by
  simp only [W.startCtx]; (repeat' split) <;> simp [h]

@[simp] theorem W.startCtx_still (w : W) (r : Region) (n : Nat) :
    (W.startCtx w r n).s.pk = w.s.pk ∧ (W.startCtx w r n).s.sec = w.s.sec := by
  simp only [W.startCtx]; (repeat' split) <;> simp

@[simp] theorem W.clustersAt_frame (w : W) (d r : Nat) :
    (w.clustersAt d r).1.s.mem = w.s.mem ∧ (w.clustersAt d r).1.s.pending = w.s.pending := by
  unfold W.clustersAt
  (repeat' split) <;> simp

@[simp] theorem W.clustersAt_pending (w : W) (d r : Nat) : (w.clustersAt d r).1.s.pending = w.s.pending := by
  unfold W.clustersAt
  (repeat' split) <;> simp

@[simp] theorem W.clustersAt_ok (w : W) (d r : Nat) (h : w.s.mem.ok = true) :
    (w.clustersAt d r).1.s.mem.ok = true := by
  unfold W.clustersAt
  (repeat' split) <;> simp [h]

@[simp] theorem W.clustersAt_still (w : W) (d r : Nat) :
    (w.clustersAt d r).1.s.pk = w.s.pk ∧ (w.clustersAt d r).1.s.sec = w.s.sec := by
  unfold W.clustersAt
  (repeat' split) <;> simp

/-! ## Machine/BindOps -/

@[simp] theorem W.absentPositions_pending (w : W) (ps : List Position) :
    (w.absentPositions ps).1.s.pending = w.s.pending := by
  induction ps generalizing w with
  | nil => rfl
  | cons p ps ih => simp only [W.absentPositions, ih, W.clustersAt_pending]

@[simp] theorem W.absentPositions_ok (w : W) (ps : List Position) (h : w.s.mem.ok = true) :
    (w.absentPositions ps).1.s.mem.ok = true := by
  induction ps generalizing w with
  | nil => exact h
  | cons p ps ih => exact ih _ (W.clustersAt_ok w _ _ h)

@[simp] theorem W.absentPositions_still (w : W) (ps : List Position) :
    (w.absentPositions ps).1.s.pk = w.s.pk ∧ (w.absentPositions ps).1.s.sec = w.s.sec := by
  induction ps generalizing w with
  | nil => exact ⟨rfl, rfl⟩
  | cons p ps ih => simp only [W.absentPositions, ih, W.clustersAt_still, and_self]

@[simp] theorem W.absentPositions_frame (w : W) (x1 : List Position) :
    (W.absentPositions w x1).1.s.mem = w.s.mem ∧ (W.absentPositions w x1).1.s.pending = w.s.pending := by
  induction x1 generalizing w with
  | nil => first | rfl | exact ⟨rfl, rfl⟩ | simp [W.absentPositions]
  | cons y ys ih => simp only [W.absentPositions]; (repeat' split) <;> simp (maxDischargeDepth := 20) [ih]

@[simp] theorem State.stopInst_frame (s : State) (r : Region) (k : SlotNo) (f : Option RecRef) :
    (State.stopInst s r k f).mem = s.mem ∧ (State.stopInst s r k f).pending = s.pending := by
  simp only [State.stopInst]; split <;> simp

@[simp] theorem State.stopInst_still (s : State) (r : Region) (k : SlotNo) (f : Option RecRef) :
    (State.stopInst s r k f).pk = s.pk ∧ (State.stopInst s r k f).sec = s.sec := by
  simp only [State.stopInst]; split <;> simp

@[simp] theorem State.takeClusters_frame (s : State) (r : Region) (k : SlotNo) (c : Chart) (kept : List Nat) :
    (State.takeClusters s r k c kept).mem = s.mem ∧ (State.takeClusters s r k c kept).pending = s.pending := by
  simp [State.takeClusters]

@[simp] theorem State.takeClusters_still (s : State) (r : Region) (k : SlotNo) (c : Chart) (kept : List Nat) :
    (State.takeClusters s r k c kept).pk = s.pk ∧ (State.takeClusters s r k c kept).sec = s.sec := by
  simp [State.takeClusters]

@[simp] theorem State.putCounter_frame (s : State) (ctr value limit : Nat) :
    (State.putCounter s ctr value limit).mem = s.mem ∧ (State.putCounter s ctr value limit).pending = s.pending := by
  simp [State.putCounter]

@[simp] theorem State.putCounter_still (s : State) (ctr value limit : Nat) :
    (State.putCounter s ctr value limit).pk = s.pk ∧ (State.putCounter s ctr value limit).sec = s.sec := by
  simp [State.putCounter]

@[simp] theorem State.setCounter_frame (s : State) (chip ctr value limit : Nat) :
    (State.setCounter s chip ctr value limit).mem = s.mem ∧
      (State.setCounter s chip ctr value limit).pending = s.pending := by
  simp only [State.setCounter]; (repeat' split) <;> simp

@[simp] theorem State.setCounter_still (s : State) (chip ctr value limit : Nat) :
    (State.setCounter s chip ctr value limit).pk = s.pk ∧ (State.setCounter s chip ctr value limit).sec = s.sec := by
  simp only [State.setCounter]; (repeat' split) <;> simp

@[simp] theorem State.setCounters_frame (s : State) (c : Chart) (vals : List (Nat × Nat)) :
    (State.setCounters s c vals).mem = s.mem ∧ (State.setCounters s c vals).pending = s.pending := by
  simp [State.setCounters]

@[simp] theorem State.setCounters_still (s : State) (c : Chart) (vals : List (Nat × Nat)) :
    (State.setCounters s c vals).pk = s.pk ∧ (State.setCounters s c vals).sec = s.sec := by
  simp [State.setCounters]

@[simp] theorem State.wakeClusters_frame (s : State) (r : Region) (k : SlotNo) :
    (State.wakeClusters s r k).mem = s.mem ∧ (State.wakeClusters s r k).pending = s.pending := by
  simp [State.wakeClusters]

@[simp] theorem State.wakeClusters_still (s : State) (r : Region) (k : SlotNo) :
    (State.wakeClusters s r k).pk = s.pk ∧ (State.wakeClusters s r k).sec = s.sec := by
  simp [State.wakeClusters]

end Sys2Proof.Machine
end

