-- ==== Sys2Proof/Laws/FrameArray.lean ====
section
/-! SUPPORT. What the operations of the arrays and the vector chains keep. -/

namespace Sys2Proof.Machine

/-! ## Machine/ArrayOps -/

@[simp] theorem State.onGroup_frame (s : State) (me : Region × SlotNo) (g : Nat) (f : Group → Group) :
    (State.onGroup s me g f).mem = s.mem ∧ (State.onGroup s me g f).pending = s.pending := by
  simp [State.onGroup]

@[simp] theorem State.onGroup_still (s : State) (me : Region × SlotNo) (g : Nat) (f : Group → Group) :
    (State.onGroup s me g f).pk = s.pk ∧ (State.onGroup s me g f).sec = s.sec := by
  simp [State.onGroup]

@[simp] theorem State.settleTiles_frame (s : State) (me : Region × SlotNo) (g : Nat) :
    (State.settleTiles s me g).mem = s.mem ∧ (State.settleTiles s me g).pending = s.pending := by
  simp only [State.settleTiles]; (repeat' split) <;> simp

@[simp] theorem State.settleTiles_still (s : State) (me : Region × SlotNo) (g : Nat) :
    (State.settleTiles s me g).pk = s.pk ∧ (State.settleTiles s me g).sec = s.sec := by
  simp only [State.settleTiles]; (repeat' split) <;> simp

@[simp] theorem State.loseTile_frame (s : State) (me : Region × SlotNo) (g t : Nat) :
    (State.loseTile s me g t).mem = s.mem ∧ (State.loseTile s me g t).pending = s.pending := by
  simp [State.loseTile]

@[simp] theorem State.loseTile_still (s : State) (me : Region × SlotNo) (g t : Nat) :
    (State.loseTile s me g t).pk = s.pk ∧ (State.loseTile s me g t).sec = s.sec := by
  simp [State.loseTile]

@[simp] theorem State.useBlocks_frame (s : State) (me : Region × SlotNo) (c : Chart) (bs : List Nat) (k : Fin 64) :
    (State.useBlocks s me c bs k).mem = s.mem ∧ (State.useBlocks s me c bs k).pending = s.pending := by
  simp [State.useBlocks]

@[simp] theorem State.useBlocks_still (s : State) (me : Region × SlotNo) (c : Chart) (bs : List Nat) (k : Fin 64) :
    (State.useBlocks s me c bs k).pk = s.pk ∧ (State.useBlocks s me c bs k).sec = s.sec := by
  simp [State.useBlocks]

@[simp] theorem W.readCodes_pending (w : W) (who : Who) (f : Fmt) (x : Src) (b1 b2 : Nat) (x6 : List (Nat × Nat)) :
    (W.readCodes w who f x b1 b2 x6).1.s.pending = w.s.pending := by
  induction x6 generalizing w who f x b1 b2 with
  | nil => first | rfl | exact ⟨rfl, rfl⟩ | simp [W.readCodes]
  | cons y ys ih => simp only [W.readCodes]; (repeat' split) <;> simp (maxDischargeDepth := 20) [ih]

@[simp] theorem W.readCodes_ok (w : W) (who : Who) (f : Fmt) (x : Src) (b1 b2 : Nat) (x6 : List (Nat × Nat))
    (h : w.s.mem.ok = true) :
    (W.readCodes w who f x b1 b2 x6).1.s.mem.ok = true := by
  induction x6 generalizing w who f x b1 b2 with
  | nil => first | exact h | simp [W.readCodes, h]
  | cons y ys ih => simp only [W.readCodes]; (repeat' split) <;> simp (maxDischargeDepth := 20) [ih, h]

@[simp] theorem W.readCodes_still (w : W) (who : Who) (f : Fmt) (x : Src) (b1 b2 : Nat) (x6 : List (Nat × Nat)) :
    (W.readCodes w who f x b1 b2 x6).1.s.pk = w.s.pk ∧ (W.readCodes w who f x b1 b2 x6).1.s.sec = w.s.sec := by
  induction x6 generalizing w who f x b1 b2 with
  | nil => first | rfl | exact ⟨rfl, rfl⟩ | simp [W.readCodes]
  | cons y ys ih => simp only [W.readCodes]; (repeat' split) <;> simp (maxDischargeDepth := 20) [ih]

@[simp] theorem W.operands_pending (w : W) (me : Region × SlotNo) (c : Chart) (k i t : Nat) (o : List Nat)
    (es : List (Nat × Nat)) :
    (W.operands w me c k i t o es).1.s.pending = w.s.pending := by
  simp only [W.operands]; (repeat' split) <;> simp

@[simp] theorem W.operands_ok (w : W) (me : Region × SlotNo) (c : Chart) (k i t : Nat) (o : List Nat) (es : List
    (Nat × Nat)) (h : w.s.mem.ok = true) :
    (W.operands w me c k i t o es).1.s.mem.ok = true := by
  simp only [W.operands]; (repeat' split) <;> simp [h]

@[simp] theorem W.operands_still (w : W) (me : Region × SlotNo) (c : Chart) (k i t : Nat) (o : List Nat)
    (es : List (Nat × Nat)) :
    (W.operands w me c k i t o es).1.s.pk = w.s.pk ∧ (W.operands w me c k i t o es).1.s.sec = w.s.sec := by
  simp only [W.operands]; (repeat' split) <;> simp

@[simp] theorem State.sendRow_frame (s : State) (q : Position) (row : Nat) (recs : List IVal) :
    (State.sendRow s q row recs).mem = s.mem ∧ (State.sendRow s q row recs).pending = s.pending := by
  constructor <;> (simp only [State.sendRow]; (try simp only []); (repeat' (first
      | done
      | (simp (maxDischargeDepth := 20) +contextual ; done)
      | with_reducible refine foldl_mem _ (fun _ _ => ?_) _ _
      | with_reducible refine foldl_pending _ (fun _ _ => ?_) _ _
      | split)))

@[simp] theorem State.sendRow_still (s : State) (q : Position) (row : Nat) (recs : List IVal) :
    (State.sendRow s q row recs).pk = s.pk ∧ (State.sendRow s q row recs).sec = s.sec := by
  constructor <;> (simp only [State.sendRow]; (try simp only []); (repeat' (first
      | done
      | (simp (maxDischargeDepth := 20) +contextual ; done)
      | with_reducible refine foldl_pk _ (fun _ _ => ?_) _ _
      | with_reducible refine foldl_sec _ (fun _ _ => ?_) _ _
      | split)))

@[simp] theorem State.sendTrailer_frame (s : State) (q : Position) (t : Nat) (flags : BitVec 8) :
    (State.sendTrailer s q t flags).mem = s.mem ∧ (State.sendTrailer s q t flags).pending = s.pending := by
  simp only [State.sendTrailer]; (repeat' split) <;> simp

@[simp] theorem State.sendTrailer_still (s : State) (q : Position) (t : Nat) (flags : BitVec 8) :
    (State.sendTrailer s q t flags).pk = s.pk ∧ (State.sendTrailer s q t flags).sec = s.sec := by
  simp only [State.sendTrailer]; (repeat' split) <;> simp

/-! ## Machine/Array -/

@[simp] theorem State.draw_frame (s0 : State) (n : Nat) :
    (State.draw s0 n).1.mem = s0.mem ∧ (State.draw s0 n).1.pending = s0.pending := by
  simp only [State.draw]; (repeat' split) <;> simp

@[simp] theorem State.draw_still (s0 : State) (n : Nat) :
    (State.draw s0 n).1.pk = s0.pk ∧ (State.draw s0 n).1.sec = s0.sec := by
  simp only [State.draw]; (repeat' split) <;> simp

@[simp] theorem State.issue_frame (s : State) (me : Region × SlotNo) (c : Chart) (g t : Nat) :
    (State.issue s me c g t).mem = s.mem ∧ (State.issue s me c g t).pending = s.pending := by
  simp only [State.issue]; (repeat' split) <;> simp

@[simp] theorem State.issue_still (s : State) (me : Region × SlotNo) (c : Chart) (g t : Nat) :
    (State.issue s me c g t).pk = s.pk ∧ (State.issue s me c g t).sec = s.sec := by
  simp only [State.issue]; (repeat' split) <;> simp

@[simp] theorem State.groupEnds_frame (s : State) (me : Region × SlotNo) (c : Chart) (g : Nat) :
    (State.groupEnds s me c g).mem = s.mem ∧ (State.groupEnds s me c g).pending = s.pending := by
  simp only [State.groupEnds]; (repeat' split) <;> simp

@[simp] theorem State.groupEnds_still (s : State) (me : Region × SlotNo) (c : Chart) (g : Nat) :
    (State.groupEnds s me c g).pk = s.pk ∧ (State.groupEnds s me c g).sec = s.sec := by
  simp only [State.groupEnds]; (repeat' split) <;> simp

@[simp] theorem State.countFlags_frame (s : State) (longsum subflush nonfinite range : Bool) :
    (State.countFlags s longsum subflush nonfinite range).mem = s.mem ∧
      (State.countFlags s longsum subflush nonfinite range).pending = s.pending := by
  simp [State.countFlags]

@[simp] theorem State.countFlags_still (s : State) (longsum subflush nonfinite range : Bool) :
    (State.countFlags s longsum subflush nonfinite range).pk = s.pk ∧
      (State.countFlags s longsum subflush nonfinite range).sec = s.sec := by
  simp [State.countFlags]

@[simp] theorem State.beginPass_frame (s : State) (me : Region × SlotNo) (g t : Nat) :
    (State.beginPass s me g t).mem = s.mem ∧ (State.beginPass s me g t).pending = s.pending := by
  simp [State.beginPass]

@[simp] theorem State.beginPass_still (s : State) (me : Region × SlotNo) (g t : Nat) :
    (State.beginPass s me g t).pk = s.pk ∧ (State.beginPass s me g t).sec = s.sec := by
  simp [State.beginPass]

@[simp] theorem State.endPass_frame (s : State) (me : Region × SlotNo) (g t : Nat) :
    (State.endPass s me g t).mem = s.mem ∧ (State.endPass s me g t).pending = s.pending := by
  simp [State.endPass]

@[simp] theorem State.endPass_still (s : State) (me : Region × SlotNo) (g t : Nat) :
    (State.endPass s me g t).pk = s.pk ∧ (State.endPass s me g t).sec = s.sec := by
  simp [State.endPass]

@[simp] theorem W.biases_pending (w : W) (me : Region × SlotNo) (c : Chart) (k t : Nat) (g : TileGeom) :
    (W.biases w me c k t g).1.s.pending = w.s.pending := by
  simp only [W.biases]; (repeat' split) <;> simp

@[simp] theorem W.biases_ok (w : W) (me : Region × SlotNo) (c : Chart) (k t : Nat) (g : TileGeom)
    (h : w.s.mem.ok = true) :
    (W.biases w me c k t g).1.s.mem.ok = true := by
  simp only [W.biases]; (repeat' split) <;> simp [h]

@[simp] theorem W.biases_still (w : W) (me : Region × SlotNo) (c : Chart) (k t : Nat) (g : TileGeom) :
    (W.biases w me c k t g).1.s.pk = w.s.pk ∧ (W.biases w me c k t g).1.s.sec = w.s.sec := by
  simp only [W.biases]; (repeat' split) <;> simp

@[simp] theorem State.emptyTile_frame (s : State) (me : Region × SlotNo) (k : Fin 64) (q : Position) (t : Nat) :
    (State.emptyTile s me k q t).mem = s.mem ∧ (State.emptyTile s me k q t).pending = s.pending := by
  simp [State.emptyTile]

@[simp] theorem State.emptyTile_still (s : State) (me : Region × SlotNo) (k : Fin 64) (q : Position) (t : Nat) :
    (State.emptyTile s me k q t).pk = s.pk ∧ (State.emptyTile s me k q t).sec = s.sec := by
  simp [State.emptyTile]

@[simp] theorem State.toPromotion_frame (s : State) (me : Region × SlotNo) (c : Chart) (k : Fin 64) (q : Position)
    (t : Tile) (last : Bool) :
    (State.toPromotion s me c k q t last).mem = s.mem ∧
      (State.toPromotion s me c k q t last).pending = s.pending := by
  simp only [State.toPromotion]; (repeat' split) <;> simp

@[simp] theorem State.toPromotion_still (s : State) (me : Region × SlotNo) (c : Chart) (k : Fin 64) (q : Position)
    (t : Tile) (last : Bool) :
    (State.toPromotion s me c k q t last).pk = s.pk ∧ (State.toPromotion s me c k q t last).sec = s.sec := by
  simp only [State.toPromotion]; (repeat' split) <;> simp

@[simp] theorem W.takeUp_pending (w : W) (me : Region × SlotNo) (c : Chart) (k : Fin 64) (q : Position) :
    (W.takeUp w me c k q).s.pending = w.s.pending := by
  simp only [W.takeUp]; (repeat' split) <;> simp

@[simp] theorem W.takeUp_ok (w : W) (me : Region × SlotNo) (c : Chart) (k : Fin 64) (q : Position)
    (h : w.s.mem.ok = true) :
    (W.takeUp w me c k q).s.mem.ok = true := by
  simp only [W.takeUp]; (repeat' split) <;> simp [h]

@[simp] theorem W.takeUp_still (w : W) (me : Region × SlotNo) (c : Chart) (k : Fin 64) (q : Position) :
    (W.takeUp w me c k q).s.pk = w.s.pk ∧ (W.takeUp w me c k q).s.sec = w.s.sec := by
  simp only [W.takeUp]; (repeat' split) <;> simp

@[simp] theorem W.edge_ok (w : W) (me : Region × SlotNo) (c : Chart) (mode cl t : Nat) (g : TileGeom) (side k : Nat)
    (h : w.s.mem.ok = true) : (w.edge me c mode cl t g side k).1.s.mem.ok = true := by
  unfold W.edge
  extract_lets n lo a o coord idx strict flush f weights
  split
  · exact h
  refine gotThen_ok _ _ (fun w codes hw => ?_) (W.operands_ok _ _ _ _ _ _ _ _ h)
  refine gotThen_ok _ _ (fun w vs hw => ?_) ?_
  · split
    · split
      · exact gotThen_ok _ _ (fun _ _ hw => by exact hw) (W.operands_ok _ _ _ _ _ _ _ _ hw)
      · exact hw
    · split
      · exact gotThen_ok _ _ (fun _ _ hw => by exact hw) (W.operands_ok _ _ _ _ _ _ _ _ hw)
      · exact hw
  · (repeat' split) <;>
      first | exact hw | exact gotThen_ok _ _ (fun _ _ hw => by exact hw) (W.operands_ok _ _ _ _ _ _ _ _ hw)

theorem W.edge_pk (w : W) (me : Region × SlotNo) (c : Chart) (mode cl t : Nat) (g : TileGeom)
    (side k : Nat) : (w.edge me c mode cl t g side k).1.s.pk = w.s.pk := by
  have ho : ∀ (w : W) k i t o es, (w.operands me c k i t o es).1.s.pk = w.s.pk := fun w _ _ _ _ _ =>
    (W.operands_still w _ _ _ _ _ _ _).1
  unfold W.edge
  extract_lets n lo a o coord idx strict flush f weights
  split
  · rfl
  refine (gotThen_pk _ _ (fun w codes => ?_)).trans (ho ..)
  refine (gotThen_pk _ _ (fun w vs => ?_)).trans ?_
  · (repeat' split) <;> first | rfl | exact (gotThen_pk _ _ (fun _ _ => by rfl)).trans (ho ..)
  · (repeat' split) <;> first | rfl | exact (gotThen_pk _ _ (fun _ _ => by rfl)).trans (ho ..)

theorem W.edge_sec (w : W) (me : Region × SlotNo) (c : Chart) (mode cl t : Nat) (g : TileGeom)
    (side k : Nat) : (w.edge me c mode cl t g side k).1.s.sec = w.s.sec := by
  have ho : ∀ (w : W) k i t o es, (w.operands me c k i t o es).1.s.sec = w.s.sec := fun w _ _ _ _ _ =>
    (W.operands_still w _ _ _ _ _ _ _).2
  unfold W.edge
  extract_lets n lo a o coord idx strict flush f weights
  split
  · rfl
  refine (gotThen_sec _ _ (fun w codes => ?_)).trans (ho ..)
  refine (gotThen_sec _ _ (fun w vs => ?_)).trans ?_
  · (repeat' split) <;> first | rfl | exact (gotThen_sec _ _ (fun _ _ => by rfl)).trans (ho ..)
  · (repeat' split) <;> first | rfl | exact (gotThen_sec _ _ (fun _ _ => by rfl)).trans (ho ..)

@[simp] theorem W.edge_still (w : W) (me : Region × SlotNo) (c : Chart) (mode cl t : Nat) (g : TileGeom)
    (side k : Nat) : (w.edge me c mode cl t g side k).1.s.pk = w.s.pk ∧
      (w.edge me c mode cl t g side k).1.s.sec = w.s.sec := ⟨W.edge_pk .., W.edge_sec ..⟩

@[simp] theorem W.edge_pending (w : W) (me : Region × SlotNo) (c : Chart) (mode cl t : Nat) (g : TileGeom)
    (side k : Nat) :
    (W.edge w me c mode cl t g side k).1.s.pending = w.s.pending := by
  simp only [W.edge]; (try simp only []); (repeat' (first
      | done
      | (simp (maxDischargeDepth := 20) +contextual ; done)
      | with_reducible refine (gotThen_pending _ _ (fun _ _ => ?_)).trans ?_
      | split))

@[simp] theorem State.waitedCc_frame (s : State) (k : Fin 64) (n : Nat) :
    (State.waitedCc s k n).mem = s.mem ∧ (State.waitedCc s k n).pending = s.pending := by
  simp [State.waitedCc]

@[simp] theorem State.waitedCc_still (s : State) (k : Fin 64) (n : Nat) :
    (State.waitedCc s k n).pk = s.pk ∧ (State.waitedCc s k n).sec = s.sec := by
  simp [State.waitedCc]

@[simp] theorem W.epiInputs_pending (w : W) (me : Region × SlotNo) (c : Chart) (k : Nat) (p : Promo) :
    (W.epiInputs w me c k p).1.s.pending = w.s.pending := by
  simp only [W.epiInputs]; (repeat' split) <;> simp (maxDischargeDepth := 20) +contextual

@[simp] theorem W.epiInputs_ok (w : W) (me : Region × SlotNo) (c : Chart) (k : Nat) (p : Promo)
    (h : w.s.mem.ok = true) :
    (W.epiInputs w me c k p).1.s.mem.ok = true := by
  simp only [W.epiInputs]; (repeat' split) <;> simp (maxDischargeDepth := 20) +contextual [h]

@[simp] theorem W.epiInputs_still (w : W) (me : Region × SlotNo) (c : Chart) (k : Nat) (p : Promo) :
    (W.epiInputs w me c k p).1.s.pk = w.s.pk ∧ (W.epiInputs w me c k p).1.s.sec = w.s.sec := by
  simp only [W.epiInputs]; (repeat' split) <;> simp (maxDischargeDepth := 20) +contextual

@[simp] theorem State.drainRow_pending (s : State) (c : Chart) (k : Fin 64) (q : Position) (p : Promo)
    (es : List EpiOut) :
    (State.drainRow s c k q p es).pending = s.pending := by
  simp only [State.drainRow]; (repeat' split) <;> simp

@[simp] theorem State.drainRow_ok (s : State) (c : Chart) (k : Fin 64) (q : Position) (p : Promo)
    (es : List EpiOut) (h : s.mem.ok = true) :
    (State.drainRow s c k q p es).mem.ok = true := by
  simp only [State.drainRow]; (repeat' split) <;> simp [h]

@[simp] theorem State.drainRow_still (s : State) (c : Chart) (k : Fin 64) (q : Position) (p : Promo)
    (es : List EpiOut) :
    (State.drainRow s c k q p es).pk = s.pk ∧ (State.drainRow s c k q p es).sec = s.sec := by
  simp only [State.drainRow]; (repeat' split) <;> simp

@[simp] theorem State.nextRow_frame (s : State) (k : Fin 64) (p : Promo) (bank : List IVal) :
    (State.nextRow s k p bank).mem = s.mem ∧ (State.nextRow s k p bank).pending = s.pending := by
  simp [State.nextRow]

@[simp] theorem State.nextRow_still (s : State) (k : Fin 64) (p : Promo) (bank : List IVal) :
    (State.nextRow s k p bank).pk = s.pk ∧ (State.nextRow s k p bank).sec = s.sec := by
  simp [State.nextRow]

@[simp] theorem State.chainRow_frame (s : State) (k : Fin 64) (next : Position) (p : Promo) (tot : List IVal) :
    (State.chainRow s k next p tot).mem = s.mem ∧ (State.chainRow s k next p tot).pending = s.pending := by
  simp only [State.chainRow]; (repeat' split) <;> simp

@[simp] theorem State.chainRow_still (s : State) (k : Fin 64) (next : Position) (p : Promo) (tot : List IVal) :
    (State.chainRow s k next p tot).pk = s.pk ∧ (State.chainRow s k next p tot).sec = s.sec := by
  simp only [State.chainRow]; (repeat' split) <;> simp

@[simp] theorem State.mergeFlags_frame (s : State) (k : Fin 64) (p : Promo) :
    (State.mergeFlags s k p).mem = s.mem ∧ (State.mergeFlags s k p).pending = s.pending := by
  simp [State.mergeFlags]

@[simp] theorem State.mergeFlags_still (s : State) (k : Fin 64) (p : Promo) :
    (State.mergeFlags s k p).pk = s.pk ∧ (State.mergeFlags s k p).sec = s.sec := by
  simp [State.mergeFlags]

@[simp] theorem State.discardAt_frame (s : State) (c : Chart) (k : Fin 64) (t : Nat) (cause : BitVec 3) :
    (State.discardAt s c k t cause).mem = s.mem ∧ (State.discardAt s c k t cause).pending = s.pending := by
  simp only [State.discardAt]; (repeat' split) <;> simp

@[simp] theorem State.discardAt_still (s : State) (c : Chart) (k : Fin 64) (t : Nat) (cause : BitVec 3) :
    (State.discardAt s c k t cause).pk = s.pk ∧ (State.discardAt s c k t cause).sec = s.sec := by
  simp only [State.discardAt]; (repeat' split) <;> simp

@[simp] theorem State.abortAt_frame (s : State) (c : Chart) (t : Nat) (p : Position) :
    (State.abortAt s c t p).mem = s.mem ∧ (State.abortAt s c t p).pending = s.pending := by
  simp only [State.abortAt]; (repeat' split) <;> simp

@[simp] theorem State.abortAt_still (s : State) (c : Chart) (t : Nat) (p : Position) :
    (State.abortAt s c t p).pk = s.pk ∧ (State.abortAt s c t p).sec = s.sec := by
  simp only [State.abortAt]; (repeat' split) <;> simp

@[simp] theorem W.abortTile_pending (w : W) (me : Region × SlotNo) (c : Chart) (k : Fin 64) (q : Position)
    (t : Nat) (cause : BitVec 3) :
    (W.abortTile w me c k q t cause).s.pending = w.s.pending := by
  simp only [W.abortTile]; (repeat' split) <;> simp

@[simp] theorem W.abortTile_ok (w : W) (me : Region × SlotNo) (c : Chart) (k : Fin 64) (q : Position) (t : Nat)
    (cause : BitVec 3) (h : w.s.mem.ok = true) :
    (W.abortTile w me c k q t cause).s.mem.ok = true := by
  simp only [W.abortTile]; (repeat' split) <;> simp [h]

@[simp] theorem W.abortTile_still (w : W) (me : Region × SlotNo) (c : Chart) (k : Fin 64) (q : Position) (t : Nat)
    (cause : BitVec 3) :
    (W.abortTile w me c k q t cause).s.pk = w.s.pk ∧ (W.abortTile w me c k q t cause).s.sec = w.s.sec := by
  simp only [W.abortTile]; (repeat' split) <;> simp

/-! ## Machine/Chain -/

@[simp] theorem W.readBeats_pending (w : W) (k : Fin 64) (x2 : List Nat) :
    (W.readBeats w k x2).1.s.pending = w.s.pending := by
  induction x2 generalizing w k with
  | nil => first | rfl | exact ⟨rfl, rfl⟩ | simp [W.readBeats]
  | cons y ys ih => simp only [W.readBeats]; (repeat' split) <;> simp (maxDischargeDepth := 20) [ih]

@[simp] theorem W.readBeats_ok (w : W) (k : Fin 64) (x2 : List Nat) (h : w.s.mem.ok = true) :
    (W.readBeats w k x2).1.s.mem.ok = true := by
  induction x2 generalizing w k with
  | nil => first | exact h | simp [W.readBeats, h]
  | cons y ys ih => simp only [W.readBeats]; (repeat' split) <;> simp (maxDischargeDepth := 20) [ih, h]

@[simp] theorem W.readBeats_still (w : W) (k : Fin 64) (x2 : List Nat) :
    (W.readBeats w k x2).1.s.pk = w.s.pk ∧ (W.readBeats w k x2).1.s.sec = w.s.sec := by
  induction x2 generalizing w k with
  | nil => first | rfl | exact ⟨rfl, rfl⟩ | simp [W.readBeats]
  | cons y ys ih => simp only [W.readBeats]; (repeat' split) <;> simp (maxDischargeDepth := 20) [ih]

@[simp] theorem W.constants_ok (w : W) (c : Chart) (v : VProg) (k : Fin 64) (slot : Nat) (h : w.s.mem.ok = true) :
    (w.constants c v k slot).1.s.mem.ok = true := by
  unfold W.constants
  refine foldl_pair_ok _ (fun x i hx => ?_) _ _ h
  dsimp only
  split
  · exact W.readBeats_ok _ _ _ hx
  · exact hx

@[simp] theorem W.constants_pending (w : W) (c : Chart) (v : VProg) (k : Fin 64) (slot : Nat) :
    (W.constants w c v k slot).1.s.pending = w.s.pending := by
  simp only [W.constants]; (try simp only []); (repeat' (first
      | done
      | (simp (maxDischargeDepth := 20) +contextual ; done)
      | with_reducible refine foldl_pair_pending _ (fun _ _ => ?_) _ _
      | split))

@[simp] theorem W.constants_still (w : W) (c : Chart) (v : VProg) (k : Fin 64) (slot : Nat) :
    (W.constants w c v k slot).1.s.pk = w.s.pk ∧ (W.constants w c v k slot).1.s.sec = w.s.sec := by
  constructor <;> (simp only [W.constants]; (try simp only []); (repeat' (first
      | done
      | (simp (maxDischargeDepth := 20) +contextual ; done)
      | with_reducible refine (foldl_pair_pk _ (fun _ _ => ?_) _ _).trans ?_
      | with_reducible refine (foldl_pair_sec _ (fun _ _ => ?_) _ _).trans ?_
      | split)))

@[simp] theorem W.sideWords_pending (w : W) (c : Chart) (v : VProg) (k : Fin 64) (slot : Nat) :
    (W.sideWords w c v k slot).1.s.pending = w.s.pending := by
  simp only [W.sideWords]; (repeat' split) <;> simp

@[simp] theorem W.sideWords_ok (w : W) (c : Chart) (v : VProg) (k : Fin 64) (slot : Nat) (h : w.s.mem.ok = true) :
    (W.sideWords w c v k slot).1.s.mem.ok = true := by
  simp only [W.sideWords]; (repeat' split) <;> simp [h]

@[simp] theorem W.sideWords_still (w : W) (c : Chart) (v : VProg) (k : Fin 64) (slot : Nat) :
    (W.sideWords w c v k slot).1.s.pk = w.s.pk ∧ (W.sideWords w c v k slot).1.s.sec = w.s.sec := by
  simp only [W.sideWords]; (repeat' split) <;> simp

@[simp] theorem W.loadRegs_pending (w : W) (c : Chart) (v : VProg) (k : Fin 64) (e : QEntry) (pass : Nat) :
    (W.loadRegs w c v k e pass).1.s.pending = w.s.pending := by
  simp only [W.loadRegs]; (repeat' split) <;> simp

@[simp] theorem W.loadRegs_ok (w : W) (c : Chart) (v : VProg) (k : Fin 64) (e : QEntry) (pass : Nat)
    (h : w.s.mem.ok = true) :
    (W.loadRegs w c v k e pass).1.s.mem.ok = true := by
  simp only [W.loadRegs]; (repeat' split) <;> simp (maxDischargeDepth := 20) +contextual [h]

@[simp] theorem W.loadRegs_still (w : W) (c : Chart) (v : VProg) (k : Fin 64) (e : QEntry) (pass : Nat) :
    (W.loadRegs w c v k e pass).1.s.pk = w.s.pk ∧ (W.loadRegs w c v k e pass).1.s.sec = w.s.sec := by
  simp only [W.loadRegs]; (repeat' split) <;> simp

@[simp] theorem W.startPass_ok (w : W) (c : Chart) (v : VProg) (k : Fin 64) (t : VcTile) (h : w.s.mem.ok = true) :
    (w.startPass c v k t).s.mem.ok = true := by
  unfold W.startPass
  extract_lets g cs sd rg ctx os new t1
  simp only [W.on_s, State.onCluster_mem]
  exact W.loadRegs_ok _ _ _ _ _ _ (W.sideWords_ok _ _ _ _ _ (W.constants_ok _ _ _ _ _ h))

@[simp] theorem W.startPass_pending (w : W) (c : Chart) (v : VProg) (k : Fin 64) (t : VcTile) :
    (W.startPass w c v k t).s.pending = w.s.pending := by
  simp [W.startPass]

@[simp] theorem W.startPass_still (w : W) (c : Chart) (v : VProg) (k : Fin 64) (t : VcTile) :
    (W.startPass w c v k t).s.pk = w.s.pk ∧ (W.startPass w c v k t).s.sec = w.s.sec := by
  simp [W.startPass]

@[simp] theorem State.spill_pending (s : State) (v : VProg) (k : Fin 64) (pass : Nat) (beats : List (List Beat)) :
    (State.spill s v k pass beats).pending = s.pending := by
  simp [State.spill]

@[simp] theorem State.spill_ok (s : State) (v : VProg) (k : Fin 64) (pass : Nat) (beats : List (List Beat))
    (h : s.mem.ok = true) :
    (State.spill s v k pass beats).mem.ok = true := by
  simp only [State.spill]; (repeat' split) <;> simp (maxDischargeDepth := 20) +contextual [h]

@[simp] theorem State.spill_still (s : State) (v : VProg) (k : Fin 64) (pass : Nat) (beats : List (List Beat)) :
    (State.spill s v k pass beats).pk = s.pk ∧ (State.spill s v k pass beats).sec = s.sec := by
  simp [State.spill]

@[simp] theorem State.putOutputs_ok (s : State) (c : Chart) (v : VProg) (k : Fin 64) (e : QEntry)
    (beats : List (List Beat)) (h : s.mem.ok = true) : (s.putOutputs c v k e beats).mem.ok = true := by
  unfold State.putOutputs
  refine foldl_ok _ (fun s x hs => foldl_ok _ (fun s o hs => ?_) _ _ hs) _ _ h
  dsimp only
  split
  · exact hs
  · exact State.shoalPut_ok _ _ _ _ hs

@[simp] theorem State.putOutputs_pending (s : State) (c : Chart) (v : VProg) (k : Fin 64) (e : QEntry)
    (beats : List (List Beat)) :
    (State.putOutputs s c v k e beats).pending = s.pending := by
  simp only [State.putOutputs]; (try simp only []); (repeat' (first
      | done
      | (simp (maxDischargeDepth := 20) +contextual ; done)
      | with_reducible refine foldl_pending _ (fun _ _ => ?_) _ _
      | split))

@[simp] theorem State.putOutputs_still (s : State) (c : Chart) (v : VProg) (k : Fin 64) (e : QEntry) (beats : List
    (List Beat)) :
    (State.putOutputs s c v k e beats).pk = s.pk ∧ (State.putOutputs s c v k e beats).sec = s.sec := by
  constructor <;> (simp only [State.putOutputs]; (try simp only []); (repeat' (first
      | done
      | (simp (maxDischargeDepth := 20) +contextual ; done)
      | with_reducible refine foldl_pk _ (fun _ _ => ?_) _ _
      | with_reducible refine foldl_sec _ (fun _ _ => ?_) _ _
      | split)))

@[simp] theorem State.endTile_pending (s : State) (me : Region × SlotNo) (c : Chart) (v : VProg) (k : Fin 64)
    (q : Position) (t : VcTile) (beats : List (List Beat)) :
    (State.endTile s me c v k q t beats).pending = s.pending := by
  simp [State.endTile]

@[simp] theorem State.endTile_ok (s : State) (me : Region × SlotNo) (c : Chart) (v : VProg) (k : Fin 64)
    (q : Position) (t : VcTile) (beats : List (List Beat)) (h : s.mem.ok = true) :
    (State.endTile s me c v k q t beats).mem.ok = true := by
  simp [State.endTile, h]

@[simp] theorem State.endTile_still (s : State) (me : Region × SlotNo) (c : Chart) (v : VProg) (k : Fin 64)
    (q : Position) (t : VcTile) (beats : List (List Beat)) :
    (State.endTile s me c v k q t beats).pk = s.pk ∧ (State.endTile s me c v k q t beats).sec = s.sec := by
  simp [State.endTile]

theorem Memory.ok_zeroed (c : Mem) (h : memWf c = true) : Memory.ok ⟨[], [], [], [], c⟩ = true := by
  rw [Memory.ok_iff]; exact ⟨rfl, rfl, h, rfl⟩

end Sys2Proof.Machine
end

