-- ==== Sys2Proof/Laws/FrameLink.lean ====
section
/-! SUPPORT. What the operations of ferries at work, links, power and security keep. -/

namespace Sys2Proof.Machine

/-! ## Machine/Ferry -/

@[simp] theorem State.load_frame (s : State) (r : Region) (mk : Nat → LoadedCtx) :
    (State.load s r mk).1.mem = s.mem ∧ (State.load s r mk).1.pending = s.pending := by
  simp [State.load]

@[simp] theorem State.load_still (s : State) (r : Region) (mk : Nat → LoadedCtx) :
    (State.load s r mk).1.pk = s.pk ∧ (State.load s r mk).1.sec = s.sec := by
  simp [State.load]

@[simp] theorem State.onStaged_frame (s : State) (r : Region) (x : Staged) (f : Staged → Staged) :
    (State.onStaged s r x f).mem = s.mem ∧ (State.onStaged s r x f).pending = s.pending := by
  simp [State.onStaged]

@[simp] theorem State.onStaged_still (s : State) (r : Region) (x : Staged) (f : Staged → Staged) :
    (State.onStaged s r x f).pk = s.pk ∧ (State.onStaged s r x f).sec = s.sec := by
  simp [State.onStaged]

@[simp] theorem W.feed_pending (w : W) (r : Region) (x : Staged) (cluster tile : Option Nat) (x5 : List
    (Nat × FerryCtx)) :
    (W.feed w r x cluster tile x5).s.pending = w.s.pending := by
  induction x5 generalizing w r x cluster tile with
  | nil => first | rfl | exact ⟨rfl, rfl⟩ | simp [W.feed]
  | cons y ys ih => simp only [W.feed]; (repeat' split) <;> simp (maxDischargeDepth := 20) [ih]

@[simp] theorem W.feed_ok (w : W) (r : Region) (x : Staged) (cluster tile : Option Nat) (x5 : List
    (Nat × FerryCtx)) (h : w.s.mem.ok = true) :
    (W.feed w r x cluster tile x5).s.mem.ok = true := by
  induction x5 generalizing w r x cluster tile with
  | nil => first | exact h | simp [W.feed, h]
  | cons y ys ih => simp only [W.feed]; (repeat' split) <;> simp (maxDischargeDepth := 20) [ih, h]

@[simp] theorem W.feed_still (w : W) (r : Region) (x : Staged) (cluster tile : Option Nat) (x5 : List
    (Nat × FerryCtx)) :
    (W.feed w r x cluster tile x5).s.pk = w.s.pk ∧ (W.feed w r x cluster tile x5).s.sec = w.s.sec := by
  induction x5 generalizing w r x cluster tile with
  | nil => first | rfl | exact ⟨rfl, rfl⟩ | simp [W.feed]
  | cons y ys ih => simp only [W.feed]; (repeat' split) <;> simp (maxDischargeDepth := 20) [ih]

@[simp] theorem W.feedAll_pending (w : W) (r : Region) :
    (W.feedAll w r).s.pending = w.s.pending := by
  simp [W.feedAll]

@[simp] theorem W.feedAll_ok (w : W) (r : Region) (h : w.s.mem.ok = true) :
    (W.feedAll w r).s.mem.ok = true := by
  simp only [W.feedAll]; (repeat' split) <;> simp (maxDischargeDepth := 20) +contextual [h]

@[simp] theorem W.feedAll_still (w : W) (r : Region) :
    (W.feedAll w r).s.pk = w.s.pk ∧ (W.feedAll w r).s.sec = w.s.sec := by
  simp [W.feedAll]

@[simp] theorem State.stagedOne_frame (s : State) (r : Region) (id : Nat) :
    (State.stagedOne s r id).mem = s.mem ∧ (State.stagedOne s r id).pending = s.pending := by
  simp [State.stagedOne]

@[simp] theorem State.stagedOne_still (s : State) (r : Region) (id : Nat) :
    (State.stagedOne s r id).pk = s.pk ∧ (State.stagedOne s r id).sec = s.sec := by
  simp [State.stagedOne]

@[simp] theorem State.served_frame (s : State) (k n : Nat) :
    (State.served s k n).mem = s.mem ∧ (State.served s k n).pending = s.pending := by
  simp [State.served]

@[simp] theorem State.served_still (s : State) (k n : Nat) :
    (State.served s k n).pk = s.pk ∧ (State.served s k n).sec = s.sec := by
  simp [State.served]

@[simp] theorem W.stageWith_pending (w : W) (me : Region × SlotNo) (lv drv n slot : Nat) (coords used : List Nat)
    (gone : List Staged) (cs : List FerryCtx) :
    (W.stageWith w me lv drv n slot coords used gone cs).s.pending = w.s.pending := by
  simp only [W.stageWith]; (repeat' split) <;> simp

@[simp] theorem W.stageWith_ok (w : W) (me : Region × SlotNo) (lv drv n slot : Nat) (coords used : List Nat)
    (gone : List Staged) (cs : List FerryCtx) (h : w.s.mem.ok = true) :
    (W.stageWith w me lv drv n slot coords used gone cs).s.mem.ok = true := by
  simp only [W.stageWith]; (repeat' split) <;> simp [h]

@[simp] theorem W.stageWith_still (w : W) (me : Region × SlotNo) (lv drv n slot : Nat) (coords used : List Nat)
    (gone : List Staged) (cs : List FerryCtx) :
    (W.stageWith w me lv drv n slot coords used gone cs).s.pk = w.s.pk ∧
      (W.stageWith w me lv drv n slot coords used gone cs).s.sec = w.s.sec := by
  simp only [W.stageWith]; (repeat' split) <;> simp

@[simp] theorem W.stageDense_pending (w : W) (me : Region × SlotNo) (c : Chart) (p : Pattern) (n lv drv : Nat)
    (coords : List Nat) :
    (W.stageDense w me c p n lv drv coords).s.pending = w.s.pending := by
  simp only [W.stageDense]; (repeat' split) <;> simp

@[simp] theorem W.stageDense_ok (w : W) (me : Region × SlotNo) (c : Chart) (p : Pattern) (n lv drv : Nat)
    (coords : List Nat) (h : w.s.mem.ok = true) :
    (W.stageDense w me c p n lv drv coords).s.mem.ok = true := by
  simp only [W.stageDense]; (repeat' split) <;> simp [h]

@[simp] theorem W.stageDense_still (w : W) (me : Region × SlotNo) (c : Chart) (p : Pattern) (n lv drv : Nat)
    (coords : List Nat) :
    (W.stageDense w me c p n lv drv coords).s.pk = w.s.pk ∧
      (W.stageDense w me c p n lv drv coords).s.sec = w.s.sec := by
  simp only [W.stageDense]; (repeat' split) <;> simp

@[simp] theorem W.fillL1_pending (w : W) (me : Region × SlotNo) (c : Chart) (p : Pattern) (n k t : Nat) :
    (W.fillL1 w me c p n k t).s.pending = w.s.pending := by
  simp only [W.fillL1]; (repeat' split) <;> simp

@[simp] theorem W.fillL1_ok (w : W) (me : Region × SlotNo) (c : Chart) (p : Pattern) (n k t : Nat)
    (h : w.s.mem.ok = true) :
    (W.fillL1 w me c p n k t).s.mem.ok = true := by
  simp only [W.fillL1]; (repeat' split) <;> simp [h]

@[simp] theorem W.fillL1_still (w : W) (me : Region × SlotNo) (c : Chart) (p : Pattern) (n k t : Nat) :
    (W.fillL1 w me c p n k t).s.pk = w.s.pk ∧ (W.fillL1 w me c p n k t).s.sec = w.s.sec := by
  simp only [W.fillL1]; (repeat' split) <;> simp

@[simp] theorem W.accumulate_pending (w : W) (who : Who) (c : Chart) (f : Fmt) (a : Nat) (es : List Nat) :
    (W.accumulate w who c f a es).1.s.pending = w.s.pending := by
  simp only [W.accumulate]; (repeat' split) <;> simp

@[simp] theorem W.accumulate_ok (w : W) (who : Who) (c : Chart) (f : Fmt) (a : Nat) (es : List Nat)
    (h : w.s.mem.ok = true) :
    (W.accumulate w who c f a es).1.s.mem.ok = true := by
  simp only [W.accumulate]; (repeat' split) <;> simp [h]

@[simp] theorem W.accumulate_still (w : W) (who : Who) (c : Chart) (f : Fmt) (a : Nat) (es : List Nat) :
    (W.accumulate w who c f a es).1.s.pk = w.s.pk ∧ (W.accumulate w who c f a es).1.s.sec = w.s.sec := by
  simp only [W.accumulate]; (repeat' split) <;> simp

@[simp] theorem W.backRow_pending (w : W) (who : Who) (c : Chart) (k : Fin 64) (o : OutSlot) (a i : Nat)
    (acc : WbAcc) :
    (W.backRow w who c k o a i acc).1.s.pending = w.s.pending := by
  simp only [W.backRow]; (repeat' split) <;> simp

@[simp] theorem W.backRow_ok (w : W) (who : Who) (c : Chart) (k : Fin 64) (o : OutSlot) (a i : Nat) (acc : WbAcc)
    (h : w.s.mem.ok = true) :
    (W.backRow w who c k o a i acc).1.s.mem.ok = true := by
  simp only [W.backRow]; (repeat' split) <;> simp (maxDischargeDepth := 20) +contextual [h]

@[simp] theorem W.backRow_still (w : W) (who : Who) (c : Chart) (k : Fin 64) (o : OutSlot) (a i : Nat) (acc : WbAcc) :
    (W.backRow w who c k o a i acc).1.s.pk = w.s.pk ∧ (W.backRow w who c k o a i acc).1.s.sec = w.s.sec := by
  simp only [W.backRow]; (repeat' split) <;> simp

@[simp] theorem W.backRows_pending (w : W) (who : Who) (c : Chart) (k : Fin 64) (o : OutSlot) (at_ : Nat → Nat)
    (x6 x7 : Nat) (x8 : WbAcc) :
    (W.backRows w who c k o at_ x6 x7 x8).1.s.pending = w.s.pending := by
  induction x6 generalizing w who c k o at_ x7 x8 with
  | zero => first | rfl | exact ⟨rfl, rfl⟩ | simp [W.backRows]
  | succ n ih => simp only [W.backRows]; (repeat' split) <;> simp (maxDischargeDepth := 20) [ih]

@[simp] theorem W.backRows_ok (w : W) (who : Who) (c : Chart) (k : Fin 64) (o : OutSlot) (at_ : Nat → Nat)
    (x6 x7 : Nat) (x8 : WbAcc) (h : w.s.mem.ok = true) :
    (W.backRows w who c k o at_ x6 x7 x8).1.s.mem.ok = true := by
  induction x6 generalizing w who c k o at_ x7 x8 with
  | zero => first | exact h | simp [W.backRows, h]
  | succ n ih => simp only [W.backRows]; (repeat' split) <;> simp (maxDischargeDepth := 20) [ih, h]

@[simp] theorem W.backRows_still (w : W) (who : Who) (c : Chart) (k : Fin 64) (o : OutSlot) (at_ : Nat → Nat)
    (x6 x7 : Nat) (x8 : WbAcc) :
    (W.backRows w who c k o at_ x6 x7 x8).1.s.pk = w.s.pk ∧
      (W.backRows w who c k o at_ x6 x7 x8).1.s.sec = w.s.sec := by
  induction x6 generalizing w who c k o at_ x7 x8 with
  | zero => first | rfl | exact ⟨rfl, rfl⟩ | simp [W.backRows]
  | succ n ih => simp only [W.backRows]; (repeat' split) <;> simp (maxDischargeDepth := 20) [ih]

@[simp] theorem W.writeBack_pending (w : W) (me : Region × SlotNo) (c : Chart) (p : Pattern) (n : Nat)
    (k : Fin 64) (q : Position) (o : OutSlot) :
    (W.writeBack w me c p n k q o).s.pending = w.s.pending := by
  simp only [W.writeBack]; (repeat' split) <;> simp

@[simp] theorem W.writeBack_ok (w : W) (me : Region × SlotNo) (c : Chart) (p : Pattern) (n : Nat) (k : Fin 64)
    (q : Position) (o : OutSlot) (h : w.s.mem.ok = true) :
    (W.writeBack w me c p n k q o).s.mem.ok = true := by
  simp only [W.writeBack]; (repeat' split) <;> simp (maxDischargeDepth := 20) +contextual [h]

@[simp] theorem W.writeBack_still (w : W) (me : Region × SlotNo) (c : Chart) (p : Pattern) (n : Nat) (k : Fin 64)
    (q : Position) (o : OutSlot) :
    (W.writeBack w me c p n k q o).s.pk = w.s.pk ∧ (W.writeBack w me c p n k q o).s.sec = w.s.sec := by
  simp only [W.writeBack]; (repeat' split) <;> simp

@[simp] theorem State.lgWrite_pending (s : State) (r : Region) (v : Nat) :
    (State.lgWrite s r v).pending = s.pending := by
  simp only [State.lgWrite]; (repeat' split) <;> simp

@[simp] theorem State.lgWrite_ok (s : State) (r : Region) (v : Nat) (h : s.mem.ok = true) :
    (State.lgWrite s r v).mem.ok = true := by
  simp only [State.lgWrite]; (repeat' split) <;> simp [h]

@[simp] theorem State.lgWrite_still (s : State) (r : Region) (v : Nat) :
    (State.lgWrite s r v).pk = s.pk ∧ (State.lgWrite s r v).sec = s.sec := by
  simp only [State.lgWrite]; (repeat' split) <;> simp

/-! ## Machine/Life -/

@[simp] theorem State.snapshot_frame (s : State) :
    (State.snapshot s).mem = s.mem ∧ (State.snapshot s).pending = s.pending := by
  simp [State.snapshot]

@[simp] theorem State.snapshot_still (s : State) :
    (State.snapshot s).pk = s.pk ∧ (State.snapshot s).sec = s.sec := by
  simp [State.snapshot]

@[simp] theorem W.appendAlarm_frame (w : W) :
    (W.appendAlarm w).s.mem = w.s.mem ∧ (W.appendAlarm w).s.pending = w.s.pending := by
  simp only [W.appendAlarm]; (repeat' split) <;> simp

@[simp] theorem W.appendAlarm_still (w : W) :
    (W.appendAlarm w).s.pk = w.s.pk ∧ (W.appendAlarm w).s.sec = w.s.sec := by
  simp only [W.appendAlarm]; (repeat' split) <;> simp

@[simp] theorem State.beginFlush_frame (s : State) (reason : BitVec 2) :
    (State.beginFlush s reason).mem = s.mem ∧ (State.beginFlush s reason).pending = s.pending := by
  simp only [State.beginFlush]; (repeat' split) <;> simp

@[simp] theorem State.beginFlush_still (s : State) (reason : BitVec 2) :
    (State.beginFlush s reason).pk = s.pk ∧ (State.beginFlush s reason).sec = s.sec := by
  simp only [State.beginFlush]; (repeat' split) <;> simp

@[simp] theorem State.wantFlush_frame (s : State) :
    (State.wantFlush s).mem = s.mem ∧ (State.wantFlush s).pending = s.pending := by
  simp only [State.wantFlush]; (repeat' split) <;> simp

@[simp] theorem State.wantFlush_still (s : State) :
    (State.wantFlush s).pk = s.pk ∧ (State.wantFlush s).sec = s.sec := by
  simp only [State.wantFlush]; (repeat' split) <;> simp

@[simp] theorem State.wantSnap_frame (s : State) :
    (State.wantSnap s).mem = s.mem ∧ (State.wantSnap s).pending = s.pending := by
  simp only [State.wantSnap]; (repeat' split) <;> simp

@[simp] theorem State.wantSnap_still (s : State) :
    (State.wantSnap s).pk = s.pk ∧ (State.wantSnap s).sec = s.sec := by
  simp only [State.wantSnap]; (repeat' split) <;> simp

/-! ## Machine/Complete -/

@[simp] theorem State.streamDone_frame (s : State) (o : Origin) :
    (State.streamDone s o).mem = s.mem ∧ (State.streamDone s o).pending = s.pending := by
  simp [State.streamDone]

@[simp] theorem State.streamDone_still (s : State) (o : Origin) :
    (State.streamDone s o).pk = s.pk ∧ (State.streamDone s o).sec = s.sec := by
  simp [State.streamDone]

@[simp] theorem State.respond_frame (s : State) (o : Origin) (op : Nat) (st : Status) (result : Nat)
    (data : List Byte) :
    (State.respond s o op st result data).mem = s.mem ∧
      (State.respond s o op st result data).pending = s.pending := by
  simp only [State.respond]; (repeat' split) <;> simp

@[simp] theorem State.respond_still (s : State) (o : Origin) (op : Nat) (st : Status) (result : Nat)
    (data : List Byte) :
    (State.respond s o op st result data).pk = s.pk ∧ (State.respond s o op st result data).sec = s.sec := by
  simp only [State.respond]; (repeat' split) <;> simp

@[simp] theorem W.ferryData_pending (w : W) (r : Region) (id row off n skip : Nat) (data : List Byte) :
    (W.ferryData w r id row off n skip data).s.pending = w.s.pending := by
  simp only [W.ferryData]; (repeat' split) <;> simp

@[simp] theorem W.ferryData_ok (w : W) (r : Region) (id row off n skip : Nat) (data : List Byte)
    (h : w.s.mem.ok = true) :
    (W.ferryData w r id row off n skip data).s.mem.ok = true := by
  simp only [W.ferryData]; (repeat' split) <;> simp [h]

@[simp] theorem W.ferryData_still (w : W) (r : Region) (id row off n skip : Nat) (data : List Byte) :
    (W.ferryData w r id row off n skip data).s.pk = w.s.pk ∧
      (W.ferryData w r id row off n skip data).s.sec = w.s.sec := by
  simp only [W.ferryData]; (repeat' split) <;> simp

@[simp] theorem State.ferryAck_pending (s : State) (r : Region) (id : Nat) :
    (State.ferryAck s r id).pending = s.pending := by
  simp [State.ferryAck]

@[simp] theorem State.ferryAck_ok (s : State) (r : Region) (id : Nat) (h : s.mem.ok = true) :
    (State.ferryAck s r id).mem.ok = true := by
  simp [State.ferryAck, h]

@[simp] theorem State.ferryAck_still (s : State) (r : Region) (id : Nat) :
    (State.ferryAck s r id).pk = s.pk ∧ (State.ferryAck s r id).sec = s.sec := by
  simp [State.ferryAck]

@[simp] theorem W.finish_pending (w : W) (x : Post) (st : Status) (result : Nat) (data : List Byte) :
    (W.finish w x st result data).s.pending = w.s.pending := by
  simp only [W.finish]; (repeat' split) <;> simp

@[simp] theorem W.finish_ok (w : W) (x : Post) (st : Status) (result : Nat) (data : List Byte)
    (h : w.s.mem.ok = true) :
    (W.finish w x st result data).s.mem.ok = true := by
  simp only [W.finish]; (repeat' split) <;> simp [h]

@[simp] theorem W.finish_still (w : W) (x : Post) (st : Status) (result : Nat) (data : List Byte) :
    (W.finish w x st result data).s.pk = w.s.pk ∧ (W.finish w x st result data).s.sec = w.s.sec := by
  simp only [W.finish]; (repeat' split) <;> simp

@[simp] theorem W.endRead_pending (w : W) (t : Outst) (st : Status) (data : List Byte) :
    (W.endRead w t st data).s.pending = w.s.pending := by
  simp [W.endRead]

@[simp] theorem W.endRead_ok (w : W) (t : Outst) (st : Status) (data : List Byte) (h : w.s.mem.ok = true) :
    (W.endRead w t st data).s.mem.ok = true := by
  simp [W.endRead, h]

@[simp] theorem W.endRead_still (w : W) (t : Outst) (st : Status) (data : List Byte) :
    (W.endRead w t st data).s.pk = w.s.pk ∧ (W.endRead w t st data).s.sec = w.s.sec := by
  simp [W.endRead]

@[simp] theorem W.endWrite_pending (w : W) (t : Outst) (st : Status) (result : Nat) :
    (W.endWrite w t st result).s.pending = w.s.pending := by
  simp [W.endWrite]

@[simp] theorem W.endWrite_ok (w : W) (t : Outst) (st : Status) (result : Nat) (h : w.s.mem.ok = true) :
    (W.endWrite w t st result).s.mem.ok = true := by
  simp [W.endWrite, h]

@[simp] theorem W.endWrite_still (w : W) (t : Outst) (st : Status) (result : Nat) :
    (W.endWrite w t st result).s.pk = w.s.pk ∧ (W.endWrite w t st result).s.sec = w.s.sec := by
  simp [W.endWrite]

@[simp] theorem W.failWrite_pending (w : W) (t : Outst) (st : Status) :
    (W.failWrite w t st).s.pending = w.s.pending := by
  simp only [W.failWrite]; (repeat' split) <;> simp

@[simp] theorem W.failWrite_ok (w : W) (t : Outst) (st : Status) (h : w.s.mem.ok = true) :
    (W.failWrite w t st).s.mem.ok = true := by
  simp only [W.failWrite]; (repeat' split) <;> simp [h]

@[simp] theorem W.failWrite_still (w : W) (t : Outst) (st : Status) :
    (W.failWrite w t st).s.pk = w.s.pk ∧ (W.failWrite w t st).s.sec = w.s.sec := by
  simp only [W.failWrite]; (repeat' split) <;> simp

@[simp] theorem State.stale_frame (s : State) :
    (State.stale s).mem = s.mem ∧ (State.stale s).pending = s.pending := by
  simp [State.stale]

@[simp] theorem State.stale_still (s : State) :
    (State.stale s).pk = s.pk ∧ (State.stale s).sec = s.sec := by
  simp [State.stale]

@[simp] theorem W.readAnswer_pending (w : W) (p : Port) (tag : BitVec 14) (st : Status) (crcs : W64)
    (data : List Byte) :
    (W.readAnswer w p tag st crcs data).s.pending = w.s.pending := by
  simp only [W.readAnswer]; (repeat' split) <;> simp

@[simp] theorem W.readAnswer_ok (w : W) (p : Port) (tag : BitVec 14) (st : Status) (crcs : W64) (data : List Byte)
    (h : w.s.mem.ok = true) :
    (W.readAnswer w p tag st crcs data).s.mem.ok = true := by
  simp only [W.readAnswer]; (repeat' split) <;> simp [h]

@[simp] theorem W.readAnswer_still (w : W) (p : Port) (tag : BitVec 14) (st : Status) (crcs : W64)
    (data : List Byte) :
    (W.readAnswer w p tag st crcs data).s.pk = w.s.pk ∧ (W.readAnswer w p tag st crcs data).s.sec = w.s.sec := by
  simp only [W.readAnswer]; (repeat' split) <;> simp

@[simp] theorem W.writeAnswer_pending (w : W) (p : Port) (tag : BitVec 14) (st : Status) (result : Nat) :
    (W.writeAnswer w p tag st result).s.pending = w.s.pending := by
  simp only [W.writeAnswer]; (repeat' split) <;> simp

@[simp] theorem W.writeAnswer_ok (w : W) (p : Port) (tag : BitVec 14) (st : Status) (result : Nat)
    (h : w.s.mem.ok = true) :
    (W.writeAnswer w p tag st result).s.mem.ok = true := by
  simp only [W.writeAnswer]; (repeat' split) <;> simp [h]

@[simp] theorem W.writeAnswer_still (w : W) (p : Port) (tag : BitVec 14) (st : Status) (result : Nat) :
    (W.writeAnswer w p tag st result).s.pk = w.s.pk ∧ (W.writeAnswer w p tag st result).s.sec = w.s.sec := by
  simp only [W.writeAnswer]; (repeat' split) <;> simp

@[simp] theorem W.linkFault_pending (w : W) (cause detail : Nat) :
    (W.linkFault w cause detail).s.pending = w.s.pending := by
  simp [W.linkFault]

@[simp] theorem W.linkFault_ok (w : W) (cause detail : Nat) (h : w.s.mem.ok = true) :
    (W.linkFault w cause detail).s.mem.ok = true := by
  simp [W.linkFault, h]

@[simp] theorem W.linkFault_still (w : W) (cause detail : Nat) :
    (W.linkFault w cause detail).s.pk = w.s.pk ∧ (W.linkFault w cause detail).s.sec = w.s.sec := by
  simp [W.linkFault]

@[simp] theorem W.allDown_pending (w : W) (p : Port) :
    (W.allDown w p).s.pending = w.s.pending := by
  simp only [W.allDown]; (repeat' split) <;> simp

@[simp] theorem W.allDown_ok (w : W) (p : Port) (h : w.s.mem.ok = true) :
    (W.allDown w p).s.mem.ok = true := by
  simp only [W.allDown]; (repeat' split) <;> simp (maxDischargeDepth := 20) +contextual [h]

@[simp] theorem W.allDown_still (w : W) (p : Port) :
    (W.allDown w p).s.pk = w.s.pk ∧ (W.allDown w p).s.sec = w.s.sec := by
  simp only [W.allDown]; (repeat' split) <;> simp

@[simp] theorem W.startPortDown_frame (w : W) (p : Port) :
    (W.startPortDown w p).s.mem = w.s.mem ∧ (W.startPortDown w p).s.pending = w.s.pending := by
  simp only [W.startPortDown]; (repeat' split) <;> simp

@[simp] theorem W.startPortDown_sec (w : W) (p : Port) :
    (W.startPortDown w p).s.sec = w.s.sec := by
  simp only [W.startPortDown]; (repeat' split) <;> simp

@[simp] theorem W.startPortDown_stepping (w : W) (p : Port) :
    (W.startPortDown w p).s.pk.stepping = w.s.pk.stepping := by
  simp only [W.startPortDown]; (repeat' split) <;> simp

@[simp] theorem W.portDown_pending (w : W) (p : Port) :
    (W.portDown w p).s.pending = w.s.pending := by
  simp [W.portDown]

@[simp] theorem W.portDown_ok (w : W) (p : Port) (h : w.s.mem.ok = true) :
    (W.portDown w p).s.mem.ok = true := by
  simp only [W.portDown]; (repeat' split) <;> simp (maxDischargeDepth := 20) +contextual [h]

@[simp] theorem W.portDown_sec (w : W) (p : Port) :
    (W.portDown w p).s.sec = w.s.sec := by
  simp [W.portDown]

@[simp] theorem W.portDown_stepping (w : W) (p : Port) :
    (W.portDown w p).s.pk.stepping = w.s.pk.stepping := by
  simp [W.portDown]

/-! ## Machine/LinkCmds -/

@[simp] theorem State.setMapdiff_frame (s : State) (b : BundleNo) :
    (State.setMapdiff s b).mem = s.mem ∧ (State.setMapdiff s b).pending = s.pending := by
  simp only [State.setMapdiff]; (repeat' split) <;> simp

@[simp] theorem State.setMapdiff_still (s : State) (b : BundleNo) :
    (State.setMapdiff s b).pk = s.pk ∧ (State.setMapdiff s b).sec = s.sec := by
  simp only [State.setMapdiff]; (repeat' split) <;> simp

@[simp] theorem State.compareMaps_frame (s : State) (b : BundleNo) :
    (State.compareMaps s b).mem = s.mem ∧ (State.compareMaps s b).pending = s.pending := by
  simp only [State.compareMaps]; (repeat' split) <;> simp

@[simp] theorem State.compareMaps_still (s : State) (b : BundleNo) :
    (State.compareMaps s b).pk = s.pk ∧ (State.compareMaps s b).sec = s.sec := by
  simp only [State.compareMaps]; (repeat' split) <;> simp

@[simp] theorem State.sendRetire_frame (s : State) (b : BundleNo) :
    (State.sendRetire s b).mem = s.mem ∧ (State.sendRetire s b).pending = s.pending := by
  simp [State.sendRetire]

@[simp] theorem State.sendRetire_still (s : State) (b : BundleNo) :
    (State.sendRetire s b).pk = s.pk ∧ (State.sendRetire s b).sec = s.sec := by
  simp [State.sendRetire]

@[simp] theorem W.retireField_pending (w : W) (b : BundleNo) :
    (W.retireField w b).s.pending = w.s.pending := by
  simp only [W.retireField]; (repeat' split) <;> simp

@[simp] theorem W.retireField_ok (w : W) (b : BundleNo) (h : w.s.mem.ok = true) :
    (W.retireField w b).s.mem.ok = true := by
  simp only [W.retireField]; (repeat' split) <;> simp [h]

@[simp] theorem W.retireField_sec (w : W) (b : BundleNo) :
    (W.retireField w b).s.sec = w.s.sec := by
  simp only [W.retireField]; (repeat' split) <;> simp

@[simp] theorem W.retireField_stepping (w : W) (b : BundleNo) :
    (W.retireField w b).s.pk.stepping = w.s.pk.stepping := by
  simp only [W.retireField]; (repeat' split) <;> simp

@[simp] theorem W.retireBundle_pending (w : W) (b : BundleNo) :
    (W.retireBundle w b).s.pending = w.s.pending := by
  simp only [W.retireBundle]; (repeat' split) <;> simp

@[simp] theorem W.retireBundle_ok (w : W) (b : BundleNo) (h : w.s.mem.ok = true) :
    (W.retireBundle w b).s.mem.ok = true := by
  simp only [W.retireBundle]; (repeat' split) <;> simp [h]

@[simp] theorem W.retireBundle_sec (w : W) (b : BundleNo) :
    (W.retireBundle w b).s.sec = w.s.sec := by
  simp only [W.retireBundle]; (repeat' split) <;> simp

@[simp] theorem W.retireBundle_stepping (w : W) (b : BundleNo) :
    (W.retireBundle w b).s.pk.stepping = w.s.pk.stepping := by
  simp only [W.retireBundle]; (repeat' split) <;> simp

@[simp] theorem W.mapsReady_pending (w : W) (b : BundleNo) :
    (W.mapsReady w b).s.pending = w.s.pending := by
  simp only [W.mapsReady]; (repeat' split) <;> simp

@[simp] theorem W.mapsReady_ok (w : W) (b : BundleNo) (h : w.s.mem.ok = true) :
    (W.mapsReady w b).s.mem.ok = true := by
  simp only [W.mapsReady]; (repeat' split) <;> simp [h]

@[simp] theorem W.mapsReady_sec (w : W) (b : BundleNo) :
    (W.mapsReady w b).s.sec = w.s.sec := by
  simp only [W.mapsReady]; (repeat' split) <;> simp

@[simp] theorem W.mapsReady_stepping (w : W) (b : BundleNo) :
    (W.mapsReady w b).s.pk.stepping = w.s.pk.stepping := by
  simp only [W.mapsReady]; (repeat' split) <;> simp

@[simp] theorem W.takeMap_pending (w : W) (b : BundleNo) (m : W64) :
    (W.takeMap w b m).s.pending = w.s.pending := by
  simp only [W.takeMap]; (repeat' split) <;> simp

@[simp] theorem W.takeMap_ok (w : W) (b : BundleNo) (m : W64) (h : w.s.mem.ok = true) :
    (W.takeMap w b m).s.mem.ok = true := by
  simp only [W.takeMap]; (repeat' split) <;> simp [h]

@[simp] theorem W.takeMap_still (w : W) (b : BundleNo) (m : W64) :
    (W.takeMap w b m).s.pk = w.s.pk ∧ (W.takeMap w b m).s.sec = w.s.sec := by
  simp only [W.takeMap]; (repeat' split) <;> simp

@[simp] theorem State.noPartner_frame (s : State) (p : Port) :
    (State.noPartner s p).mem = s.mem ∧ (State.noPartner s p).pending = s.pending := by
  simp [State.noPartner]

@[simp] theorem State.noPartner_still (s : State) (p : Port) :
    (State.noPartner s p).pk = s.pk ∧ (State.noPartner s p).sec = s.sec := by
  simp [State.noPartner]

@[simp] theorem State.sendAgain_frame (s : State) (p : Port) (f : TxFlit) :
    (State.sendAgain s p f).mem = s.mem ∧ (State.sendAgain s p f).pending = s.pending := by
  simp only [State.sendAgain]; (repeat' split) <;> simp

@[simp] theorem State.sendAgain_still (s : State) (p : Port) (f : TxFlit) :
    (State.sendAgain s p f).pk = s.pk ∧ (State.sendAgain s p f).sec = s.sec := by
  simp only [State.sendAgain]; (repeat' split) <;> simp

@[simp] theorem W.takeRetire_pending (w : W) (p : Port) (lb : BitVec 8) (lastSeq : BitVec 12) :
    (W.takeRetire w p lb lastSeq).s.pending = w.s.pending := by
  simp only [W.takeRetire]; (try simp only []); (repeat' (first
      | done
      | (simp (maxDischargeDepth := 20) +contextual ; done)
      | split
      | (simp (maxDischargeDepth := 20) +contextual ; split)))

@[simp] theorem W.takeRetire_ok (w : W) (p : Port) (lb : BitVec 8) (lastSeq : BitVec 12) (h : w.s.mem.ok = true) :
    (W.takeRetire w p lb lastSeq).s.mem.ok = true := by
  simp only [W.takeRetire]; (try simp only []); (repeat' (first
      | done
      | (simp (maxDischargeDepth := 20) +contextual [h] ; done)
      | split
      | (simp (maxDischargeDepth := 20) +contextual; split)))

@[simp] theorem W.takeRetire_sec (w : W) (p : Port) (lb : BitVec 8) (lastSeq : BitVec 12) :
    (W.takeRetire w p lb lastSeq).s.sec = w.s.sec := by
  simp only [W.takeRetire]; (try simp only []); (repeat' (first
      | done
      | (simp (maxDischargeDepth := 20) +contextual ; done)
      | split
      | (simp (maxDischargeDepth := 20) +contextual ; split)))

@[simp] theorem W.takeRetire_stepping (w : W) (p : Port) (lb : BitVec 8) (lastSeq : BitVec 12) :
    (W.takeRetire w p lb lastSeq).s.pk.stepping = w.s.pk.stepping := by
  simp only [W.takeRetire]; (try simp only []); (repeat' (first
      | done
      | (simp (maxDischargeDepth := 20) +contextual ; done)
      | split
      | (simp (maxDischargeDepth := 20) +contextual ; split)))

@[simp] theorem State.takeRetireAck_frame (s : State) (p : Port) (lb : BitVec 8) :
    (State.takeRetireAck s p lb).mem = s.mem ∧ (State.takeRetireAck s p lb).pending = s.pending := by
  simp [State.takeRetireAck]

@[simp] theorem State.takeRetireAck_still (s : State) (p : Port) (lb : BitVec 8) :
    (State.takeRetireAck s p lb).pk = s.pk ∧ (State.takeRetireAck s p lb).sec = s.sec := by
  simp [State.takeRetireAck]

@[simp] theorem State.bundleSleeps_frame (s : State) (b : BundleNo) :
    (State.bundleSleeps s b).mem = s.mem ∧ (State.bundleSleeps s b).pending = s.pending := by
  simp [State.bundleSleeps]

@[simp] theorem State.bundleSleeps_still (s : State) (b : BundleNo) :
    (State.bundleSleeps s b).pk = s.pk ∧ (State.bundleSleeps s b).sec = s.sec := by
  simp [State.bundleSleeps]

@[simp] theorem State.lpEnter_frame (s : State) (p : Port) :
    (State.lpEnter s p).mem = s.mem ∧ (State.lpEnter s p).pending = s.pending := by
  simp [State.lpEnter]

@[simp] theorem State.lpEnter_still (s : State) (p : Port) :
    (State.lpEnter s p).pk = s.pk ∧ (State.lpEnter s p).sec = s.sec := by
  simp [State.lpEnter]

@[simp] theorem State.takeLpReq_frame (s : State) (b : BundleNo) :
    (State.takeLpReq s b).mem = s.mem ∧ (State.takeLpReq s b).pending = s.pending := by
  simp only [State.takeLpReq]; (repeat' split) <;> simp

@[simp] theorem State.takeLpReq_still (s : State) (b : BundleNo) :
    (State.takeLpReq s b).pk = s.pk ∧ (State.takeLpReq s b).sec = s.sec := by
  simp only [State.takeLpReq]; (repeat' split) <;> simp

@[simp] theorem State.takeLpAck_frame (s : State) (b : BundleNo) :
    (State.takeLpAck s b).mem = s.mem ∧ (State.takeLpAck s b).pending = s.pending := by
  simp only [State.takeLpAck]; (repeat' split) <;> simp

@[simp] theorem State.takeLpAck_still (s : State) (b : BundleNo) :
    (State.takeLpAck s b).pk = s.pk ∧ (State.takeLpAck s b).sec = s.sec := by
  simp only [State.takeLpAck]; (repeat' split) <;> simp

@[simp] theorem State.repeatCtrl_frame (s : State) (p : Port) :
    (State.repeatCtrl s p).mem = s.mem ∧ (State.repeatCtrl s p).pending = s.pending := by
  constructor <;> (simp only [State.repeatCtrl]; (try simp only []); (repeat' (first
      | done
      | (simp (maxDischargeDepth := 20) +contextual ; done)
      | with_reducible refine foldl_mem _ (fun _ _ => ?_) _ _
      | with_reducible refine foldl_pending _ (fun _ _ => ?_) _ _
      | with_reducible refine (foldl_mem _ (fun _ _ => ?_) _ _).trans ?_
      | with_reducible refine (foldl_pending _ (fun _ _ => ?_) _ _).trans ?_
      | split)))

@[simp] theorem State.repeatCtrl_still (s : State) (p : Port) :
    (State.repeatCtrl s p).pk = s.pk ∧ (State.repeatCtrl s p).sec = s.sec := by
  constructor <;> (simp only [State.repeatCtrl]; (try simp only []); (repeat' (first
      | done
      | (simp (maxDischargeDepth := 20) +contextual ; done)
      | with_reducible refine foldl_pk _ (fun _ _ => ?_) _ _
      | with_reducible refine foldl_sec _ (fun _ _ => ?_) _ _
      | with_reducible refine (foldl_pk _ (fun _ _ => ?_) _ _).trans ?_
      | with_reducible refine (foldl_sec _ (fun _ _ => ?_) _ _).trans ?_
      | split)))

/-! ## Machine/Power -/

@[simp] theorem State.setRegion_frame (s : State) (r : Region) (on : Bool) :
    (State.setRegion s r on).mem = s.mem ∧ (State.setRegion s r on).pending = s.pending := by
  simp [State.setRegion]

@[simp] theorem State.setRegion_still (s : State) (r : Region) (on : Bool) :
    (State.setRegion s r on).pk = s.pk ∧ (State.setRegion s r on).sec = s.sec := by
  simp [State.setRegion]

@[simp] theorem State.startClusters_frame (s : State) (ks : List Nat) :
    (State.startClusters s ks).mem = s.mem ∧ (State.startClusters s ks).pending = s.pending := by
  simp [State.startClusters]

@[simp] theorem State.startClusters_still (s : State) (ks : List Nat) :
    (State.startClusters s ks).pk = s.pk ∧ (State.startClusters s ks).sec = s.sec := by
  simp [State.startClusters]

@[simp] theorem State.refuseEbb_frame (s : State) (code : BitVec 4) (chip : BitVec 3) (at_ : BitVec 8) :
    (State.refuseEbb s code chip at_).mem = s.mem ∧ (State.refuseEbb s code chip at_).pending = s.pending := by
  simp [State.refuseEbb]

@[simp] theorem State.refuseEbb_still (s : State) (code : BitVec 4) (chip : BitVec 3) (at_ : BitVec 8) :
    (State.refuseEbb s code chip at_).pk = s.pk ∧ (State.refuseEbb s code chip at_).sec = s.sec := by
  simp [State.refuseEbb]

@[simp] theorem State.beginEbb_frame (s : State) :
    (State.beginEbb s).mem = s.mem ∧ (State.beginEbb s).pending = s.pending := by
  simp [State.beginEbb]

@[simp] theorem State.beginEbb_still (s : State) :
    (State.beginEbb s).pk = s.pk ∧ (State.beginEbb s).sec = s.sec := by
  simp [State.beginEbb]

@[simp] theorem W.ebbReq_frame (w : W) :
    (W.ebbReq w).s.mem = w.s.mem ∧ (W.ebbReq w).s.pending = w.s.pending := by
  simp only [W.ebbReq]; (repeat' split) <;> simp

@[simp] theorem W.ebbReq_still (w : W) :
    (W.ebbReq w).s.pk = w.s.pk ∧ (W.ebbReq w).s.sec = w.s.sec := by
  simp only [W.ebbReq]; (repeat' split) <;> simp

@[simp] theorem State.dropTier_ok (s : State) (h : s.mem.ok = true) : s.dropTier.mem.ok = true :=
  State.zeroShoal_ok s h

@[simp] theorem State.dropTier_pending (s : State) :
    (State.dropTier s).pending = s.pending := by
  simp [State.dropTier]

@[simp] theorem State.dropTier_still (s : State) :
    (State.dropTier s).pk = s.pk ∧ (State.dropTier s).sec = s.sec := by
  simp [State.dropTier]

@[simp] theorem State.reachEbb_frame (s : State) :
    (State.reachEbb s).mem = s.mem ∧ (State.reachEbb s).pending = s.pending := by
  simp only [State.reachEbb]; (repeat' split) <;> simp

@[simp] theorem State.reachEbb_sec (s : State) :
    (State.reachEbb s).sec = s.sec := by
  simp only [State.reachEbb]; (repeat' split) <;> simp

@[simp] theorem State.reachEbb_stepping (s : State) :
    (State.reachEbb s).pk.stepping = s.pk.stepping := by
  simp only [State.reachEbb]; (repeat' split) <;> simp

@[simp] theorem State.wakeEvent_frame (s : State) (bits : BitVec 5) :
    (State.wakeEvent s bits).mem = s.mem ∧ (State.wakeEvent s bits).pending = s.pending := by
  simp only [State.wakeEvent]; (repeat' split) <;> simp

@[simp] theorem State.wakeEvent_still (s : State) (bits : BitVec 5) :
    (State.wakeEvent s bits).pk = s.pk ∧ (State.wakeEvent s bits).sec = s.sec := by
  simp only [State.wakeEvent]; (repeat' split) <;> simp

@[simp] theorem State.reloadConsts_frame (s : State) :
    (State.reloadConsts s).mem = s.mem ∧ (State.reloadConsts s).pending = s.pending := by
  constructor <;> (simp only [State.reloadConsts]; (try simp only []); (repeat' (first
      | done
      | (simp (maxDischargeDepth := 20) +contextual ; done)
      | with_reducible refine foldl_mem _ (fun _ _ => ?_) _ _
      | with_reducible refine foldl_pending _ (fun _ _ => ?_) _ _
      | split)))

@[simp] theorem State.reloadConsts_still (s : State) :
    (State.reloadConsts s).pk = s.pk ∧ (State.reloadConsts s).sec = s.sec := by
  constructor <;> (simp only [State.reloadConsts]; (try simp only []); (repeat' (first
      | done
      | (simp (maxDischargeDepth := 20) +contextual ; done)
      | with_reducible refine foldl_pk _ (fun _ _ => ?_) _ _
      | with_reducible refine foldl_sec _ (fun _ _ => ?_) _ _
      | split)))

@[simp] theorem State.leaveEbb_frame (s : State) :
    (State.leaveEbb s).mem = s.mem ∧ (State.leaveEbb s).pending = s.pending := by
  simp only [State.leaveEbb]; (repeat' split) <;> simp

@[simp] theorem State.leaveEbb_still (s : State) :
    (State.leaveEbb s).pk = s.pk ∧ (State.leaveEbb s).sec = s.sec := by
  simp only [State.leaveEbb]; (repeat' split) <;> simp

@[simp] theorem State.offReq_frame (s : State) :
    (State.offReq s).mem = s.mem ∧ (State.offReq s).pending = s.pending := by
  simp only [State.offReq]; (repeat' split) <;> simp

@[simp] theorem State.offReq_still (s : State) :
    (State.offReq s).pk = s.pk ∧ (State.offReq s).sec = s.sec := by
  simp only [State.offReq]; (repeat' split) <;> simp

@[simp] theorem State.addTemps_frame (s : State) (ts : List (Option Int)) :
    (State.addTemps s ts).mem = s.mem ∧ (State.addTemps s ts).pending = s.pending := by
  constructor <;> (simp only [State.addTemps]; (try simp only []); (repeat' (first
      | done
      | (simp (maxDischargeDepth := 20) +contextual ; done)
      | with_reducible refine foldl_mem _ (fun _ _ => ?_) _ _
      | with_reducible refine foldl_pending _ (fun _ _ => ?_) _ _
      | split)))

@[simp] theorem State.addTemps_still (s : State) (ts : List (Option Int)) :
    (State.addTemps s ts).pk = s.pk ∧ (State.addTemps s ts).sec = s.sec := by
  constructor <;> (simp only [State.addTemps]; (try simp only []); (repeat' (first
      | done
      | (simp (maxDischargeDepth := 20) +contextual ; done)
      | with_reducible refine foldl_pk _ (fun _ _ => ?_) _ _
      | with_reducible refine foldl_sec _ (fun _ _ => ?_) _ _
      | split)))

@[simp] theorem State.addDroops_frame (s : State) (ds : List Nat) :
    (State.addDroops s ds).mem = s.mem ∧ (State.addDroops s ds).pending = s.pending := by
  constructor <;> (simp only [State.addDroops]; (try simp only []); (repeat' (first
      | done
      | (simp (maxDischargeDepth := 20) +contextual ; done)
      | with_reducible refine foldl_mem _ (fun _ _ => ?_) _ _
      | with_reducible refine foldl_pending _ (fun _ _ => ?_) _ _
      | split)))

@[simp] theorem State.addDroops_still (s : State) (ds : List Nat) :
    (State.addDroops s ds).pk = s.pk ∧ (State.addDroops s ds).sec = s.sec := by
  constructor <;> (simp only [State.addDroops]; (try simp only []); (repeat' (first
      | done
      | (simp (maxDischargeDepth := 20) +contextual ; done)
      | with_reducible refine foldl_pk _ (fun _ _ => ?_) _ _
      | with_reducible refine foldl_sec _ (fun _ _ => ?_) _ _
      | split)))

@[simp] theorem State.passTime_frame (s : State) :
    (State.passTime s).mem = s.mem ∧ (State.passTime s).pending = s.pending := by
  simp only [State.passTime]; (repeat' split) <;> simp

@[simp] theorem State.passTime_still (s : State) :
    (State.passTime s).pk = s.pk ∧ (State.passTime s).sec = s.sec := by
  simp only [State.passTime]; (repeat' split) <;> simp

@[simp] theorem State.takeSample_frame (s : State) (rs ts : List (Option Int)) :
    (s.takeSample rs ts).mem = s.mem ∧ (s.takeSample rs ts).pending = s.pending := by
  unfold State.takeSample
  extract_lets p base comp tb fail hot level forced therm s1 ao s2 rise s3
  have hr : ∀ s a b i, (rise s a b i).mem = s.mem ∧ (rise s a b i).pending = s.pending := by
    intro s a b i; simp only [rise]; split <;> simp
  have h3 : s3.mem = s.mem ∧ s3.pending = s.pending := by
    simp only [s3, hr, s2, s1]; simp
  split
  · exact h3
  · exact h3

@[simp] theorem State.takeSample_still (s : State) (rs ts : List (Option Int)) :
    (s.takeSample rs ts).pk = s.pk ∧ (s.takeSample rs ts).sec = s.sec := by
  unfold State.takeSample
  extract_lets p base comp tb fail hot level forced therm s1 ao s2 rise s3
  have hr : ∀ s a b i, (rise s a b i).pk = s.pk ∧ (rise s a b i).sec = s.sec := by
    intro s a b i; simp only [rise]; split <;> simp
  have h3 : s3.pk = s.pk ∧ s3.sec = s.sec := by
    simp only [s3, hr, s2, s1]; simp
  split
  · exact h3
  · exact h3

/-! ## Machine/Sec -/

@[simp] theorem State.alarmContexts_pending (s : State) :
    (State.alarmContexts s).pending = s.pending := by
  simp [State.alarmContexts]

@[simp] theorem State.alarmContexts_ok (s : State) (h : s.mem.ok = true) :
    (State.alarmContexts s).mem.ok = true := by
  simp only [State.alarmContexts]; (repeat' split) <;> simp (maxDischargeDepth := 20) +contextual [h]

@[simp] theorem State.alarmContexts_still (s : State) :
    (State.alarmContexts s).pk = s.pk ∧ (State.alarmContexts s).sec = s.sec := by
  simp [State.alarmContexts]

@[simp] theorem State.stopEngines_pending (s : State) :
    (State.stopEngines s).pending = s.pending := by
  simp [State.stopEngines]

@[simp] theorem State.stopEngines_ok (s : State) (h : s.mem.ok = true) :
    (State.stopEngines s).mem.ok = true := by
  simp [State.stopEngines, h]

@[simp] theorem State.stopEngines_still (s : State) :
    (State.stopEngines s).pk = s.pk ∧ (State.stopEngines s).sec = s.sec := by
  simp [State.stopEngines]

@[simp] theorem W.alarmRecords_pending (w : W) (xs : List (Region × SlotNo)) :
    (W.alarmRecords w xs).s.pending = w.s.pending := by
  simp [W.alarmRecords]

@[simp] theorem W.alarmRecords_ok (w : W) (xs : List (Region × SlotNo)) (h : w.s.mem.ok = true) :
    (W.alarmRecords w xs).s.mem.ok = true := by
  simp only [W.alarmRecords]; (repeat' split) <;> simp (maxDischargeDepth := 20) +contextual [h]

@[simp] theorem W.alarmRecords_still (w : W) (xs : List (Region × SlotNo)) :
    (W.alarmRecords w xs).s.pk = w.s.pk ∧ (W.alarmRecords w xs).s.sec = w.s.sec := by
  simp [W.alarmRecords]

@[simp] theorem State.countAlarms_frame (s : State) (srcs : BitVec 8) :
    (State.countAlarms s srcs).mem = s.mem ∧ (State.countAlarms s srcs).pending = s.pending := by
  simp [State.countAlarms]

@[simp] theorem State.countAlarms_still (s : State) (srcs : BitVec 8) :
    (State.countAlarms s srcs).pk = s.pk ∧ (State.countAlarms s srcs).sec = s.sec := by
  simp [State.countAlarms]

@[simp] theorem State.erase_frame (s : State) :
    (State.erase s).mem = s.mem ∧ (State.erase s).pending = s.pending := by
  simp [State.erase]

@[simp] theorem State.erase_stepping (s : State) :
    (State.erase s).pk.stepping = s.pk.stepping := by
  simp [State.erase]

@[simp] theorem W.alarm_pending (w : W) (srcs : BitVec 8) (own erase : Bool) :
    (W.alarm w srcs own erase).s.pending = w.s.pending := by
  simp only [W.alarm]; (repeat' split) <;> simp

@[simp] theorem W.alarm_ok (w : W) (srcs : BitVec 8) (own erase : Bool) (h : w.s.mem.ok = true) :
    (W.alarm w srcs own erase).s.mem.ok = true := by
  simp only [W.alarm]; (repeat' split) <;> simp [h]

@[simp] theorem W.alarm_stepping (w : W) (srcs : BitVec 8) (own erase : Bool) :
    (W.alarm w srcs own erase).s.pk.stepping = w.s.pk.stepping := by
  simp only [W.alarm]; (repeat' split) <;> simp

@[simp] theorem W.ownAlarm_pending (w : W) (src : Nat) :
    (W.ownAlarm w src).s.pending = w.s.pending := by
  simp [W.ownAlarm]

@[simp] theorem W.ownAlarm_ok (w : W) (src : Nat) (h : w.s.mem.ok = true) :
    (W.ownAlarm w src).s.mem.ok = true := by
  simp [W.ownAlarm, h]

@[simp] theorem W.ownAlarm_stepping (w : W) (src : Nat) :
    (W.ownAlarm w src).s.pk.stepping = w.s.pk.stepping := by
  simp [W.ownAlarm]

@[simp] theorem State.openD3_frame (s : State) :
    (State.openD3 s).mem = s.mem ∧ (State.openD3 s).pending = s.pending := by
  simp only [State.openD3]; (repeat' split) <;> simp

@[simp] theorem State.openD3_stepping (s : State) :
    (State.openD3 s).pk.stepping = s.pk.stepping := by
  simp only [State.openD3]; (repeat' split) <;> simp

@[simp] theorem W.grant_pending (w : W) (level : Nat) :
    (W.grant w level).s.pending = w.s.pending := by
  simp only [W.grant]; (repeat' split) <;> simp

@[simp] theorem W.grant_ok (w : W) (level : Nat) (h : w.s.mem.ok = true) :
    (W.grant w level).s.mem.ok = true := by
  simp only [W.grant]; (repeat' split) <;> simp [h]

@[simp] theorem W.grant_stepping (w : W) (level : Nat) :
    (W.grant w level).s.pk.stepping = w.s.pk.stepping := by
  simp only [W.grant]; (repeat' split) <;> simp

@[simp] theorem State.newNonce_frame (s : State) :
    (State.newNonce s).mem = s.mem ∧ (State.newNonce s).pending = s.pending := by
  simp only [State.newNonce]; (repeat' split) <;> simp

@[simp] theorem State.newNonce_stepping (s : State) :
    (State.newNonce s).pk.stepping = s.pk.stepping := by
  simp only [State.newNonce]; (repeat' split) <;> simp

@[simp] theorem W.tokenGo_pending (w : W) :
    (W.tokenGo w).s.pending = w.s.pending := by
  simp only [W.tokenGo]; (repeat' split) <;> simp

@[simp] theorem W.tokenGo_ok (w : W) (h : w.s.mem.ok = true) :
    (W.tokenGo w).s.mem.ok = true := by
  simp only [W.tokenGo]; (repeat' split) <;> simp [h]

@[simp] theorem W.tokenGo_stepping (w : W) :
    (W.tokenGo w).s.pk.stepping = w.s.pk.stepping := by
  simp only [W.tokenGo]; (repeat' split) <;> simp

@[simp] theorem State.lowerLevel_frame (s : State) (lv : BitVec 2) :
    (State.lowerLevel s lv).mem = s.mem ∧ (State.lowerLevel s lv).pending = s.pending := by
  simp only [State.lowerLevel]; (repeat' split) <;> simp

@[simp] theorem State.lowerLevel_stepping (s : State) (lv : BitVec 2) :
    (State.lowerLevel s lv).pk.stepping = s.pk.stepping := by
  simp only [State.lowerLevel]; (repeat' split) <;> simp

/-- A bottom tree that the report turns to leaves queue, memories and registers. -/
theorem State.treeReady_frame {s t : State} (h : s.treeReady = some t) :
    t.mem = s.mem ∧ t.pending = s.pending ∧ t.pk = s.pk ∧ t.sec = s.sec := by
  simp only [State.treeReady] at h
  (repeat' split at h) <;> cases h <;> simp

@[simp] theorem W.takeIndex_frame (w : W) :
    (W.takeIndex w).1.s.mem = w.s.mem ∧ (W.takeIndex w).1.s.pending = w.s.pending := by
  simp only [W.takeIndex]; (repeat' split) <;> simp

@[simp] theorem W.takeIndex_stepping (w : W) :
    (W.takeIndex w).1.s.pk.stepping = w.s.pk.stepping := by
  simp only [W.takeIndex]; (repeat' split) <;> simp

@[simp] theorem State.attResult_frame (s : State) (r : BitVec 4) :
    (State.attResult s r).mem = s.mem ∧ (State.attResult s r).pending = s.pending := by
  simp [State.attResult]

@[simp] theorem State.attResult_stepping (s : State) (r : BitVec 4) :
    (State.attResult s r).pk.stepping = s.pk.stepping := by
  simp [State.attResult]

@[simp] theorem W.attReport_pending (w : W) :
    (W.attReport w).s.pending = w.s.pending := by
  simp only [W.attReport]; (repeat' split) <;> simp

@[simp] theorem W.attReport_ok (w : W) (h : w.s.mem.ok = true) :
    (W.attReport w).s.mem.ok = true := by
  simp only [W.attReport]; (repeat' split) <;> simp [h]

@[simp] theorem W.attReport_stepping (w : W) :
    (W.attReport w).s.pk.stepping = w.s.pk.stepping := by
  simp only [W.attReport]; (repeat' split) <;> simp

@[simp] theorem W.attGo_pending (w : W) : w.attGo.s.pending = w.s.pending := by
  simp only [W.attGo]
  (repeat' split) <;> (try simp)
  next h => exact (State.treeReady_frame h).2.1

@[simp] theorem W.attGo_ok (w : W) (h : w.s.mem.ok = true) : w.attGo.s.mem.ok = true := by
  simp only [W.attGo]
  (repeat' split) <;> (try simp [h])
  next ht => exact W.attReport_ok _ (by rw [(State.treeReady_frame ht).1]; exact h)

@[simp] theorem W.attGo_stepping (w : W) : w.attGo.s.pk.stepping = w.s.pk.stepping := by
  simp only [W.attGo]
  (repeat' split) <;> (try simp)
  next h => rw [(State.treeReady_frame h).2.2.1]

@[simp] theorem W.bindOwner_frame (w : W) :
    (W.bindOwner w).s.mem = w.s.mem ∧ (W.bindOwner w).s.pending = w.s.pending := by
  simp only [W.bindOwner]; (repeat' split) <;> simp

@[simp] theorem W.bindOwner_stepping (w : W) :
    (W.bindOwner w).s.pk.stepping = w.s.pk.stepping := by
  simp only [W.bindOwner]; (repeat' split) <;> simp

@[simp] theorem State.haltDomain_frame (s : State) (d : Nat) (on : Bool) :
    (State.haltDomain s d on).mem = s.mem ∧ (State.haltDomain s d on).pending = s.pending := by
  simp only [State.haltDomain]; (repeat' split) <;> simp

@[simp] theorem State.haltDomain_still (s : State) (d : Nat) (on : Bool) :
    (State.haltDomain s d on).pk = s.pk ∧ (State.haltDomain s d on).sec = s.sec := by
  simp only [State.haltDomain]; (repeat' split) <;> simp

@[simp] theorem State.rawBlock_ok (s : State) (b : Nat) (data : List Byte) (crc : BitVec 16) (poison : Bool)
    (h : s.mem.ok = true) : (s.rawBlock b data crc poison).mem.ok = true := by
  have h1 := (Memory.ok_iff _).1 (State.blockPut_ok s b data h)
  unfold State.rawBlock
  extract_lets s1 diff
  rw [Memory.ok_iff]
  refine ⟨h1.1, h1.2.1, h1.2.2.1, ?_⟩
  by_cases hp : poison = true
  · simp only [hp, if_true]; exact risingFrom_setInsert h1.2.2.2 (Nat.zero_le b)
  · simp only [hp, if_false, Bool.false_eq_true]; exact h1.2.2.2

@[simp] theorem State.rawBlock_pending (s : State) (b : Nat) (data : List Byte) (crc : BitVec 16) (poison : Bool) :
    (State.rawBlock s b data crc poison).pending = s.pending := by
  simp [State.rawBlock]

@[simp] theorem State.rawBlock_still (s : State) (b : Nat) (data : List Byte) (crc : BitVec 16) (poison : Bool) :
    (State.rawBlock s b data crc poison).pk = s.pk ∧ (State.rawBlock s b data crc poison).sec = s.sec := by
  simp [State.rawBlock]

@[simp] theorem State.tapBlock_frame (s : State) (b : Nat) :
    (State.tapBlock s b).mem = s.mem ∧ (State.tapBlock s b).pending = s.pending := by
  simp [State.tapBlock]

@[simp] theorem State.tapBlock_still (s : State) (b : Nat) :
    (State.tapBlock s b).pk = s.pk ∧ (State.tapBlock s b).sec = s.sec := by
  simp [State.tapBlock]

@[simp] theorem State.openSegment_frame (s : State) (id : BitVec 3) (on : Bool) :
    (State.openSegment s id on).mem = s.mem ∧ (State.openSegment s id on).pending = s.pending := by
  simp [State.openSegment]

@[simp] theorem State.openSegment_still (s : State) (id : BitVec 3) (on : Bool) :
    (State.openSegment s id on).pk = s.pk ∧ (State.openSegment s id on).sec = s.sec := by
  simp [State.openSegment]

@[simp] theorem State.segmentShift_frame (s : State) (id : BitVec 3) (data : W64) :
    (State.segmentShift s id data).mem = s.mem ∧ (State.segmentShift s id data).pending = s.pending := by
  simp only [State.segmentShift]; (repeat' split) <;> simp

@[simp] theorem State.segmentShift_still (s : State) (id : BitVec 3) (data : W64) :
    (State.segmentShift s id data).pk = s.pk ∧ (State.segmentShift s id data).sec = s.sec := by
  simp only [State.segmentShift]; (repeat' split) <;> simp

end Sys2Proof.Machine
end

