-- ==== Sys2Proof/Laws/FrameServe.lean ====
section
/-! SUPPORT. What the operations of registers, rings and served requests keep. -/

namespace Sys2Proof.Machine

/-! ## Machine/RegRead -/

@[simp] theorem State.clearOnRead_frame (s : State) (blk o : Nat) (lo hi : Bool) :
    (State.clearOnRead s blk o lo hi).mem = s.mem ∧ (State.clearOnRead s blk o lo hi).pending = s.pending := by
  simp only [State.clearOnRead]; (repeat' split) <;> simp

@[simp] theorem State.clearOnRead_still (s : State) (blk o : Nat) (lo hi : Bool) :
    (State.clearOnRead s blk o lo hi).pk = s.pk ∧ (State.clearOnRead s blk o lo hi).sec = s.sec := by
  simp only [State.clearOnRead]; (repeat' split) <;> simp

@[simp] theorem W.logWindow_frame (w : W) (off n : Nat) :
    (W.logWindow w off n).1.s.mem = w.s.mem ∧ (W.logWindow w off n).1.s.pending = w.s.pending := by
  simp only [W.logWindow]; (repeat' split) <;> simp

@[simp] theorem W.logWindow_still (w : W) (off n : Nat) :
    (W.logWindow w off n).1.s.pk = w.s.pk ∧ (W.logWindow w off n).1.s.sec = w.s.sec := by
  simp only [W.logWindow]; (repeat' split) <;> simp

@[simp] theorem W.ctlRead_frame (w : W) (blk off n : Nat) :
    (W.ctlRead w blk off n).1.s.mem = w.s.mem ∧ (W.ctlRead w blk off n).1.s.pending = w.s.pending := by
  constructor <;> (simp only [W.ctlRead]; (try simp only []); (repeat' (first
      | done
      | (simp (maxDischargeDepth := 20) +contextual ; done)
      | split
      | (simp (maxDischargeDepth := 20) +contextual ; split))))

@[simp] theorem W.ctlRead_still (w : W) (blk off n : Nat) :
    (W.ctlRead w blk off n).1.s.pk = w.s.pk ∧ (W.ctlRead w blk off n).1.s.sec = w.s.sec := by
  constructor <;> (simp only [W.ctlRead]; (try simp only []); (repeat' (first
      | done
      | (simp (maxDischargeDepth := 20) +contextual ; done)
      | split
      | (simp (maxDischargeDepth := 20) +contextual ; split))))

/-! ## Machine/Rings -/

@[simp] theorem W.doorbell_pending (w0 : W) (r : Region) (i : RingNo) (v : W32) :
    (W.doorbell w0 r i v).s.pending = w0.s.pending := by
  simp only [W.doorbell]; (repeat' split) <;> simp

@[simp] theorem W.doorbell_ok (w0 : W) (r : Region) (i : RingNo) (v : W32) (h : w0.s.mem.ok = true) :
    (W.doorbell w0 r i v).s.mem.ok = true := by
  simp only [W.doorbell]; (repeat' split) <;> simp [h]

@[simp] theorem W.doorbell_still (w0 : W) (r : Region) (i : RingNo) (v : W32) :
    (W.doorbell w0 r i v).s.pk = w0.s.pk ∧ (W.doorbell w0 r i v).s.sec = w0.s.sec := by
  simp only [W.doorbell]; (repeat' split) <;> simp

@[simp] theorem State.ringCfg_frame (s : State) (r : Region) (i : RingNo) (v : W32) :
    (State.ringCfg s r i v).mem = s.mem ∧ (State.ringCfg s r i v).pending = s.pending := by
  simp only [State.ringCfg]; (repeat' split) <;> simp

@[simp] theorem State.ringCfg_still (s : State) (r : Region) (i : RingNo) (v : W32) :
    (State.ringCfg s r i v).pk = s.pk ∧ (State.ringCfg s r i v).sec = s.sec := by
  simp only [State.ringCfg]; (repeat' split) <;> simp

@[simp] theorem State.takeRecord_frame (s : State) (r : Region) (f : RecRef) (bs : List Byte) :
    (State.takeRecord s r f bs).mem = s.mem ∧ (State.takeRecord s r f bs).pending = s.pending := by
  simp [State.takeRecord]

@[simp] theorem State.takeRecord_still (s : State) (r : Region) (f : RecRef) (bs : List Byte) :
    (State.takeRecord s r f bs).pk = s.pk ∧ (State.takeRecord s r f bs).sec = s.sec := by
  simp [State.takeRecord]

@[simp] theorem W.retirePlain_pending (w : W) (r : Region) (f : RecRef) (code : Nat) :
    (W.retirePlain w r f code).s.pending = w.s.pending := by
  simp [W.retirePlain]

@[simp] theorem W.retirePlain_ok (w : W) (r : Region) (f : RecRef) (code : Nat) (h : w.s.mem.ok = true) :
    (W.retirePlain w r f code).s.mem.ok = true := by
  simp [W.retirePlain, h]

@[simp] theorem W.retirePlain_still (w : W) (r : Region) (f : RecRef) (code : Nat) :
    (W.retirePlain w r f code).s.pk = w.s.pk ∧ (W.retirePlain w r f code).s.sec = w.s.sec := by
  simp [W.retirePlain]

@[simp] theorem State.farCounters_frame (s : State) (f : Far) :
    (State.farCounters s f).mem = s.mem ∧ (State.farCounters s f).pending = s.pending := by
  simp [State.farCounters]

@[simp] theorem State.farCounters_still (s : State) (f : Far) :
    (State.farCounters s f).pk = s.pk ∧ (State.farCounters s f).sec = s.sec := by
  simp [State.farCounters]

@[simp] theorem State.bindTo_frame (s : State) (r : Region) (k : SlotNo) (c : Chart) (no : BitVec 12)
    (args : List Byte) (kept : List Nat) (recBase statAddr : Addr) :
    (State.bindTo s r k c no args kept recBase statAddr).mem = s.mem ∧
      (State.bindTo s r k c no args kept recBase statAddr).pending = s.pending := by
  simp [State.bindTo]

@[simp] theorem State.bindTo_still (s : State) (r : Region) (k : SlotNo) (c : Chart) (no : BitVec 12)
    (args : List Byte) (kept : List Nat) (recBase statAddr : Addr) :
    (State.bindTo s r k c no args kept recBase statAddr).pk = s.pk ∧
      (State.bindTo s r k c no args kept recBase statAddr).sec = s.sec := by
  simp [State.bindTo]

@[simp] theorem W.retireBind_pending (w : W) (r : Region) (k : SlotNo) (f : RecRef) :
    (W.retireBind w r k f).s.pending = w.s.pending := by
  simp only [W.retireBind]; (repeat' split) <;> simp

@[simp] theorem W.retireBind_ok (w : W) (r : Region) (k : SlotNo) (f : RecRef) (h : w.s.mem.ok = true) :
    (W.retireBind w r k f).s.mem.ok = true := by
  simp only [W.retireBind]; (repeat' split) <;> simp (maxDischargeDepth := 20) +contextual [h]

@[simp] theorem W.retireBind_still (w : W) (r : Region) (k : SlotNo) (f : RecRef) :
    (W.retireBind w r k f).s.pk = w.s.pk ∧ (W.retireBind w r k f).s.sec = w.s.sec := by
  simp only [W.retireBind]; (repeat' split) <;> simp

@[simp] theorem W.bindRecord_ok (w : W) (r : Region) (f : RecRef) (bs : List Byte) (preempted : Bool)
    (h : w.s.mem.ok = true) : (w.bindRecord r f bs preempted).s.mem.ok = true := by
  unfold W.bindRecord
  extract_lets k argAddr
  split
  · simp [h]
  next c _ =>
  split
  · simp [h]
  extract_lets x y
  have hx : x.1.s.mem.ok = true := W.absentPositions_ok _ _ h
  split
  · simp [hx]
  next =>
  extract_lets xs w1
  split
  · split
    · simp only [W.on_s, State.onRing_mem]
      refine foldl_ok _ (fun s y hs => ?_) _ _ hx
      split <;> simp [hs]
    · simp [hx]
  have hy : y.1.s.mem.ok = true := W.read_ok _ _ _ _ hx
  split
  · simp [hy]
  · simp [w1, hy]

@[simp] theorem W.bindRecord_pending (w : W) (r : Region) (f : RecRef) (bs : List Byte) (preempted : Bool) :
    (W.bindRecord w r f bs preempted).s.pending = w.s.pending := by
  simp only [W.bindRecord]; (try simp only []); (repeat' (first
      | done
      | (simp (maxDischargeDepth := 20) +contextual ; done)
      | with_reducible refine (foldl_pending _ (fun _ _ => ?_) _ _).trans ?_
      | split
      | simp (maxDischargeDepth := 20) +contextual))

@[simp] theorem W.bindRecord_still (w : W) (r : Region) (f : RecRef) (bs : List Byte) (preempted : Bool) :
    (W.bindRecord w r f bs preempted).s.pk = w.s.pk ∧ (W.bindRecord w r f bs preempted).s.sec = w.s.sec := by
  constructor <;> (simp only [W.bindRecord]; (try simp only []); (repeat' (first
      | done
      | (simp (maxDischargeDepth := 20) +contextual ; done)
      | with_reducible refine (foldl_pk _ (fun _ _ => ?_) _ _).trans ?_
      | with_reducible refine (foldl_sec _ (fun _ _ => ?_) _ _).trans ?_
      | split
      | simp (maxDischargeDepth := 20) +contextual)))

@[simp] theorem State.farBind_frame (s : State) (r : Region) (f : Far) :
    (State.farBind s r f).mem = s.mem ∧ (State.farBind s r f).pending = s.pending := by
  simp only [State.farBind]; (repeat' split) <;> simp

@[simp] theorem State.farBind_still (s : State) (r : Region) (f : Far) :
    (State.farBind s r f).pk = s.pk ∧ (State.farBind s r f).sec = s.sec := by
  simp only [State.farBind]; (repeat' split) <;> simp

@[simp] theorem State.releaseInst_frame (s : State) (r : Region) (k : SlotNo) :
    (State.releaseInst s r k).mem = s.mem ∧ (State.releaseInst s r k).pending = s.pending := by
  simp [State.releaseInst]

@[simp] theorem State.releaseInst_still (s : State) (r : Region) (k : SlotNo) :
    (State.releaseInst s r k).pk = s.pk ∧ (State.releaseInst s r k).sec = s.sec := by
  simp [State.releaseInst]

@[simp] theorem State.retake_frame (s : State) (r : Region) (k : SlotNo) (c : Chart) :
    (State.retake s r k c).mem = s.mem ∧ (State.retake s r k c).pending = s.pending := by
  simp only [State.retake]; (repeat' split) <;> simp

@[simp] theorem State.retake_still (s : State) (r : Region) (k : SlotNo) (c : Chart) :
    (State.retake s r k c).pk = s.pk ∧ (State.retake s r k c).sec = s.sec := by
  simp only [State.retake]; (repeat' split) <;> simp

@[simp] theorem W.startFail_pending (w : W) (r : Region) (k : SlotNo) (f : RecRef) (cause detail : Nat) :
    (W.startFail w r k f cause detail).s.pending = w.s.pending := by
  simp [W.startFail]

@[simp] theorem W.startFail_ok (w : W) (r : Region) (k : SlotNo) (f : RecRef) (cause detail : Nat)
    (h : w.s.mem.ok = true) :
    (W.startFail w r k f cause detail).s.mem.ok = true := by
  simp [W.startFail, h]

@[simp] theorem W.startFail_still (w : W) (r : Region) (k : SlotNo) (f : RecRef) (cause detail : Nat) :
    (W.startFail w r k f cause detail).s.pk = w.s.pk ∧ (W.startFail w r k f cause detail).s.sec = w.s.sec := by
  simp [W.startFail]

@[simp] theorem W.fetch8_pending (w : W) (r : Region) (a : Nat) :
    (W.fetch8 w r a).1.s.pending = w.s.pending := by
  simp only [W.fetch8]; (repeat' split) <;> simp

@[simp] theorem W.fetch8_ok (w : W) (r : Region) (a : Nat) (h : w.s.mem.ok = true) :
    (W.fetch8 w r a).1.s.mem.ok = true := by
  simp only [W.fetch8]; (repeat' split) <;> simp [h]

@[simp] theorem W.fetch8_still (w : W) (r : Region) (a : Nat) :
    (W.fetch8 w r a).1.s.pk = w.s.pk ∧ (W.fetch8 w r a).1.s.sec = w.s.sec := by
  simp only [W.fetch8]; (repeat' split) <;> simp

@[simp] theorem W.fetchBounds_pending (w : W) (r : Region) (args : List Byte) (x3 : List BoundEntry) (x4 : Nat) :
    (W.fetchBounds w r args x3 x4).1.s.pending = w.s.pending := by
  induction x3 generalizing w r args x4 with
  | nil => first | rfl | exact ⟨rfl, rfl⟩ | simp [W.fetchBounds]
  | cons y ys ih => simp only [W.fetchBounds]; (repeat' split) <;> simp (maxDischargeDepth := 20) [ih]

@[simp] theorem W.fetchBounds_ok (w : W) (r : Region) (args : List Byte) (x3 : List BoundEntry) (x4 : Nat)
    (h : w.s.mem.ok = true) :
    (W.fetchBounds w r args x3 x4).1.s.mem.ok = true := by
  induction x3 generalizing w r args x4 with
  | nil => first | exact h | simp [W.fetchBounds, h]
  | cons y ys ih => simp only [W.fetchBounds]; (repeat' split) <;> simp (maxDischargeDepth := 20) [ih, h]

@[simp] theorem W.fetchBounds_still (w : W) (r : Region) (args : List Byte) (x3 : List BoundEntry) (x4 : Nat) :
    (W.fetchBounds w r args x3 x4).1.s.pk = w.s.pk ∧ (W.fetchBounds w r args x3 x4).1.s.sec = w.s.sec := by
  induction x3 generalizing w r args x4 with
  | nil => first | rfl | exact ⟨rfl, rfl⟩ | simp [W.fetchBounds]
  | cons y ys ih => simp only [W.fetchBounds]; (repeat' split) <;> simp (maxDischargeDepth := 20) [ih]

@[simp] theorem W.startRun_pending (w : W) (r : Region) (k : SlotNo) (f : RecRef) (c : Chart) :
    (W.startRun w r k f c).s.pending = w.s.pending := by
  simp only [W.startRun]; (repeat' split) <;> simp

@[simp] theorem W.startRun_ok (w : W) (r : Region) (k : SlotNo) (f : RecRef) (c : Chart) (h : w.s.mem.ok = true) :
    (W.startRun w r k f c).s.mem.ok = true := by
  simp only [W.startRun]; (repeat' split) <;> simp [h]

@[simp] theorem W.startRun_still (w : W) (r : Region) (k : SlotNo) (f : RecRef) (c : Chart) :
    (W.startRun w r k f c).s.pk = w.s.pk ∧ (W.startRun w r k f c).s.sec = w.s.sec := by
  simp only [W.startRun]; (repeat' split) <;> simp

@[simp] theorem State.farStart_frame (s : State) (r : Region) (f : Far) :
    (State.farStart s r f).mem = s.mem ∧ (State.farStart s r f).pending = s.pending := by
  simp only [State.farStart]; (repeat' split) <;> simp

@[simp] theorem State.farStart_still (s : State) (r : Region) (f : Far) :
    (State.farStart s r f).pk = s.pk ∧ (State.farStart s r f).sec = s.sec := by
  simp only [State.farStart]; (repeat' split) <;> simp

@[simp] theorem State.resumeRun_frame (s : State) (r : Region) (k : SlotNo) (c : Chart) (f : RecRef)
    (fromEn : Bool) (from_ : Nat) :
    (State.resumeRun s r k c f fromEn from_).mem = s.mem ∧
      (State.resumeRun s r k c f fromEn from_).pending = s.pending := by
  simp only [State.resumeRun]; (repeat' split) <;> simp

@[simp] theorem State.resumeRun_still (s : State) (r : Region) (k : SlotNo) (c : Chart) (f : RecRef)
    (fromEn : Bool) (from_ : Nat) :
    (State.resumeRun s r k c f fromEn from_).pk = s.pk ∧ (State.resumeRun s r k c f fromEn from_).sec = s.sec := by
  simp only [State.resumeRun]; (repeat' split) <;> simp

@[simp] theorem State.farResume_frame (s : State) (r : Region) (f : Far) :
    (State.farResume s r f).mem = s.mem ∧ (State.farResume s r f).pending = s.pending := by
  simp only [State.farResume]; (repeat' split) <;> simp

@[simp] theorem State.farResume_still (s : State) (r : Region) (f : Far) :
    (State.farResume s r f).pk = s.pk ∧ (State.farResume s r f).sec = s.sec := by
  simp only [State.farResume]; (repeat' split) <;> simp

@[simp] theorem State.holdRing_frame (s : State) (r : Region) (c : Current) :
    (State.holdRing s r c).mem = s.mem ∧ (State.holdRing s r c).pending = s.pending := by
  simp [State.holdRing]

@[simp] theorem State.holdRing_still (s : State) (r : Region) (c : Current) :
    (State.holdRing s r c).pk = s.pk ∧ (State.holdRing s r c).sec = s.sec := by
  simp [State.holdRing]

@[simp] theorem State.farRest_frame (s : State) (r : Region) (k : SlotNo) (st : InstState) (reason : BitVec 4) :
    (State.farRest s r k st reason).mem = s.mem ∧ (State.farRest s r k st reason).pending = s.pending := by
  simp [State.farRest]

@[simp] theorem State.farRest_still (s : State) (r : Region) (k : SlotNo) (st : InstState) (reason : BitVec 4) :
    (State.farRest s r k st reason).pk = s.pk ∧ (State.farRest s r k st reason).sec = s.sec := by
  simp [State.farRest]

@[simp] theorem State.displace_frame (s : State) (r : Region) (k : SlotNo) :
    (State.displace s r k).mem = s.mem ∧ (State.displace s r k).pending = s.pending := by
  simp [State.displace]

@[simp] theorem State.displace_still (s : State) (r : Region) (k : SlotNo) :
    (State.displace s r k).pk = s.pk ∧ (State.displace s r k).sec = s.sec := by
  simp [State.displace]

/-! ## Machine/Regs -/

@[simp] theorem State.clearAlarm_frame (s : State) :
    (State.clearAlarm s).mem = s.mem ∧ (State.clearAlarm s).pending = s.pending := by
  simp [State.clearAlarm]

@[simp] theorem State.clearAlarm_stepping (s : State) :
    (State.clearAlarm s).pk.stepping = s.pk.stepping := by
  simp [State.clearAlarm]

@[simp] theorem State.setFence_frame (s : State) :
    (State.setFence s).mem = s.mem ∧ (State.setFence s).pending = s.pending := by
  simp [State.setFence]

@[simp] theorem State.setFence_still (s : State) :
    (State.setFence s).pk = s.pk ∧ (State.setFence s).sec = s.sec := by
  simp [State.setFence]

@[simp] theorem W.assign_frame (w : W) (v : W32) :
    (W.assign w v).s.mem = w.s.mem ∧ (W.assign w v).s.pending = w.s.pending := by
  simp only [W.assign]; (repeat' split) <;> simp

@[simp] theorem W.assign_stepping (w : W) (v : W32) :
    (W.assign w v).s.pk.stepping = w.s.pk.stepping := by
  simp only [W.assign]; (repeat' split) <;> simp

@[simp] theorem State.clusterWrite_frame (s : State) (k : Fin 64) (o v : Nat) (lo hi : Bool) :
    (State.clusterWrite s k o v lo hi).mem = s.mem ∧ (State.clusterWrite s k o v lo hi).pending = s.pending := by
  simp [State.clusterWrite]

@[simp] theorem State.clusterWrite_still (s : State) (k : Fin 64) (o v : Nat) (lo hi : Bool) :
    (State.clusterWrite s k o v lo hi).pk = s.pk ∧ (State.clusterWrite s k o v lo hi).sec = s.sec := by
  simp [State.clusterWrite]

@[simp] theorem W.ringWrite_pending (w : W) (r : Region) (i : RingNo) (o v : Nat) (lo hi : Bool) :
    (W.ringWrite w r i o v lo hi).s.pending = w.s.pending := by
  simp only [W.ringWrite]; (repeat' split) <;> simp

@[simp] theorem W.ringWrite_ok (w : W) (r : Region) (i : RingNo) (o v : Nat) (lo hi : Bool) (h : w.s.mem.ok = true) :
    (W.ringWrite w r i o v lo hi).s.mem.ok = true := by
  simp only [W.ringWrite]; (repeat' split) <;> simp [h]

@[simp] theorem W.ringWrite_still (w : W) (r : Region) (i : RingNo) (o v : Nat) (lo hi : Bool) :
    (W.ringWrite w r i o v lo hi).s.pk = w.s.pk ∧ (W.ringWrite w r i o v lo hi).s.sec = w.s.sec := by
  simp only [W.ringWrite]; (repeat' split) <;> simp

@[simp] theorem W.regionWrite_pending (w : W) (r : Region) (o v : Nat) (lo hi : Bool) :
    (W.regionWrite w r o v lo hi).s.pending = w.s.pending := by
  simp only [W.regionWrite]; (repeat' split) <;> simp

@[simp] theorem W.regionWrite_ok (w : W) (r : Region) (o v : Nat) (lo hi : Bool) (h : w.s.mem.ok = true) :
    (W.regionWrite w r o v lo hi).s.mem.ok = true := by
  simp only [W.regionWrite]; (repeat' split) <;> simp [h]

@[simp] theorem W.regionWrite_still (w : W) (r : Region) (o v : Nat) (lo hi : Bool) :
    (W.regionWrite w r o v lo hi).s.pk = w.s.pk ∧ (W.regionWrite w r o v lo hi).s.sec = w.s.sec := by
  simp only [W.regionWrite]; (repeat' split) <;> simp

@[simp] theorem State.hgWrite_frame (s : State) (o v : Nat) (lo hi : Bool) :
    (State.hgWrite s o v lo hi).mem = s.mem ∧ (State.hgWrite s o v lo hi).pending = s.pending := by
  simp only [State.hgWrite]; (repeat' split) <;> simp

@[simp] theorem State.hgWrite_still (s : State) (o v : Nat) (lo hi : Bool) :
    (State.hgWrite s o v lo hi).pk = s.pk ∧ (State.hgWrite s o v lo hi).sec = s.sec := by
  simp only [State.hgWrite]; (repeat' split) <;> simp

@[simp] theorem W.pwWrite_frame (w : W) (o v : Nat) (lo hi : Bool) :
    (W.pwWrite w o v lo hi).s.mem = w.s.mem ∧ (W.pwWrite w o v lo hi).s.pending = w.s.pending := by
  simp only [W.pwWrite]; (repeat' split) <;> simp

@[simp] theorem W.pwWrite_still (w : W) (o v : Nat) (lo hi : Bool) :
    (W.pwWrite w o v lo hi).s.pk = w.s.pk ∧ (W.pwWrite w o v lo hi).s.sec = w.s.sec := by
  simp only [W.pwWrite]; (repeat' split) <;> simp

@[simp] theorem W.debugCtrl_pending (w : W) (a b c : Bool) (d : BitVec 2) :
    (w.debugCtrl a b c d).s.pending = w.s.pending := by
  unfold W.debugCtrl
  extract_lets w1 w2
  have h1 : w1.s.pending = w.s.pending := by
    simp only [w1]; split
    · simp
    · rfl
  have h2 : w2.s.pending = w1.s.pending := by
    simp only [w2]; split
    · simp
    · rfl
  split
  · simp [h2, h1]
  · rw [h2, h1]

@[simp] theorem W.debugCtrl_ok (w : W) (a b c : Bool) (d : BitVec 2) (h : w.s.mem.ok = true) :
    (w.debugCtrl a b c d).s.mem.ok = true := by
  unfold W.debugCtrl
  extract_lets w1 w2
  have h1 : w1.s.mem.ok = true := by
    simp only [w1]; split
    · simp [h]
    · exact h
  have h2 : w2.s.mem.ok = true := by
    simp only [w2]; split
    · exact W.tokenGo_ok _ h1
    · exact h1
  split
  · simp [h2]
  · exact h2

@[simp] theorem W.debugCtrl_stepping (w : W) (a b c : Bool) (d : BitVec 2) :
    (w.debugCtrl a b c d).s.pk.stepping = w.s.pk.stepping := by
  unfold W.debugCtrl
  extract_lets w1 w2
  have h1 : w1.s.pk.stepping = w.s.pk.stepping := by
    simp only [w1]; split
    · simp
    · rfl
  have h2 : w2.s.pk.stepping = w1.s.pk.stepping := by
    simp only [w2]; split
    · simp
    · rfl
  split
  · simp [h2, h1]
  · rw [h2, h1]

@[simp] theorem W.secWrite_pending (w : W) (o v : Nat) (lo hi : Bool) :
    (w.secWrite o v lo hi).s.pending = w.s.pending := by
  have hs : ∀ f, (w.on (·.onSec f)).s.pending = w.s.pending := fun f => by rw [W.on_s, State.onSec_pending]
  unfold W.secWrite
  split
  · rfl
  split
  · exact hs _
  split
  · exact hs _
  split
  · split
    · exact hs _
    · rfl
  split
  · split
    · exact W.debugCtrl_pending _ _ _ _ _
    · rfl
  split
  · split
    · exact W.attGo_pending _
    · rfl
  split
  · exact hs _
  · rfl

@[simp] theorem W.secWrite_ok (w : W) (o v : Nat) (lo hi : Bool) (h : w.s.mem.ok = true) :
    (w.secWrite o v lo hi).s.mem.ok = true := by
  have hs : ∀ f, (w.on (·.onSec f)).s.mem.ok = true := fun f => by rw [W.on_s, State.onSec_mem]; exact h
  unfold W.secWrite
  split
  · exact h
  split
  · exact hs _
  split
  · exact hs _
  split
  · split
    · exact hs _
    · exact h
  split
  · split
    · exact W.debugCtrl_ok _ _ _ _ _ h
    · exact h
  split
  · split
    · exact W.attGo_ok _ h
    · exact h
  split
  · exact hs _
  · exact h

@[simp] theorem W.secWrite_stepping (w : W) (o v : Nat) (lo hi : Bool) :
    (w.secWrite o v lo hi).s.pk.stepping = w.s.pk.stepping := by
  have hs : ∀ f, (w.on (·.onSec f)).s.pk.stepping = w.s.pk.stepping := fun f => by rw [W.on_s, State.onSec_pk]
  unfold W.secWrite
  split
  · rfl
  split
  · exact hs _
  split
  · exact hs _
  split
  · split
    · exact hs _
    · rfl
  split
  · split
    · exact W.debugCtrl_stepping _ _ _ _ _
    · rfl
  split
  · split
    · exact W.attGo_stepping _
    · rfl
  split
  · exact hs _
  · rfl

@[simp] theorem State.ltWrite_frame (s : State) (o v : Nat) (lo hi : Bool) :
    (State.ltWrite s o v lo hi).mem = s.mem ∧ (State.ltWrite s o v lo hi).pending = s.pending := by
  simp only [State.ltWrite]; (repeat' split) <;> simp

@[simp] theorem State.ltWrite_still (s : State) (o v : Nat) (lo hi : Bool) :
    (State.ltWrite s o v lo hi).pk = s.pk ∧ (State.ltWrite s o v lo hi).sec = s.sec := by
  simp only [State.ltWrite]; (repeat' split) <;> simp

@[simp] theorem State.snWrite_frame (s : State) (o v : Nat) (lo : Bool) :
    (State.snWrite s o v lo).mem = s.mem ∧ (State.snWrite s o v lo).pending = s.pending := by
  simp only [State.snWrite]; (repeat' split) <;> simp

@[simp] theorem State.snWrite_still (s : State) (o v : Nat) (lo : Bool) :
    (State.snWrite s o v lo).pk = s.pk ∧ (State.snWrite s o v lo).sec = s.sec := by
  simp only [State.snWrite]; (repeat' split) <;> simp

@[simp] theorem W.slotWrite_pending (w : W) (blk o v : Nat) (lo hi : Bool) :
    (w.slotWrite blk o v lo hi).s.pending = w.s.pending := by
  unfold W.slotWrite
  (repeat' split) <;> simp

@[simp] theorem W.slotWrite_ok (w : W) (blk o v : Nat) (lo hi : Bool) (h : w.s.mem.ok = true) :
    (w.slotWrite blk o v lo hi).s.mem.ok = true := by
  unfold W.slotWrite
  (repeat' split) <;> simp [h]

@[simp] theorem W.slotWrite_stepping (w : W) (blk o v : Nat) (lo hi : Bool) :
    (w.slotWrite blk o v lo hi).s.pk.stepping = w.s.pk.stepping := by
  unfold W.slotWrite
  (repeat' split) <;> simp

@[simp] theorem W.ctlWrite_pending (w : W) (blk off n v : Nat) :
    (W.ctlWrite w blk off n v).s.pending = w.s.pending := by
  simp [W.ctlWrite]

@[simp] theorem W.ctlWrite_ok (w : W) (blk off n v : Nat) (h : w.s.mem.ok = true) :
    (W.ctlWrite w blk off n v).s.mem.ok = true := by
  simp [W.ctlWrite, h]

@[simp] theorem W.ctlWrite_stepping (w : W) (blk off n v : Nat) :
    (W.ctlWrite w blk off n v).s.pk.stepping = w.s.pk.stepping := by
  simp [W.ctlWrite]

@[simp] theorem W.ctlReject_pending (w : W) (by_ : Initiator) (cause blk off : Nat) :
    (W.ctlReject w by_ cause blk off).s.pending = w.s.pending := by
  simp [W.ctlReject]

@[simp] theorem W.ctlReject_ok (w : W) (by_ : Initiator) (cause blk off : Nat) (h : w.s.mem.ok = true) :
    (W.ctlReject w by_ cause blk off).s.mem.ok = true := by
  simp [W.ctlReject, h]

@[simp] theorem W.ctlReject_still (w : W) (by_ : Initiator) (cause blk off : Nat) :
    (W.ctlReject w by_ cause blk off).s.pk = w.s.pk ∧ (W.ctlReject w by_ cause blk off).s.sec = w.s.sec := by
  simp [W.ctlReject]

/-! ## Machine/Serve -/

@[simp] theorem W.sendOn_pending (w : W) (o : Origin) (a : Nat) (k : Access) (x : StreamReq) :
    (W.sendOn w o a k x).1.s.pending = w.s.pending := by
  simp only [W.sendOn]; (repeat' split) <;> simp

@[simp] theorem W.sendOn_ok (w : W) (o : Origin) (a : Nat) (k : Access) (x : StreamReq) (h : w.s.mem.ok = true) :
    (W.sendOn w o a k x).1.s.mem.ok = true := by
  simp only [W.sendOn]; (repeat' split) <;> simp [h]

@[simp] theorem W.sendOn_still (w : W) (o : Origin) (a : Nat) (k : Access) (x : StreamReq) :
    (W.sendOn w o a k x).1.s.pk = w.s.pk ∧ (W.sendOn w o a k x).1.s.sec = w.s.sec := by
  simp only [W.sendOn]; (repeat' split) <;> simp

@[simp] theorem W.stackRead_pending (w : W) (o : Origin) (a n : Nat) :
    (W.stackRead w o a n).1.s.pending = w.s.pending := by
  simp only [W.stackRead]; (repeat' split) <;> simp

@[simp] theorem W.stackRead_ok (w : W) (o : Origin) (a n : Nat) (h : w.s.mem.ok = true) :
    (W.stackRead w o a n).1.s.mem.ok = true := by
  simp only [W.stackRead]; (repeat' split) <;> simp [h]

@[simp] theorem W.stackRead_still (w : W) (o : Origin) (a n : Nat) :
    (W.stackRead w o a n).1.s.pk = w.s.pk ∧ (W.stackRead w o a n).1.s.sec = w.s.sec := by
  simp only [W.stackRead]; (repeat' split) <;> simp

@[simp] theorem W.stackWrite_pending (w : W) (o : Origin) (a : Nat) (bs : List Byte) :
    (W.stackWrite w o a bs).1.s.pending = w.s.pending := by
  simp only [W.stackWrite]; (repeat' split) <;> simp

@[simp] theorem W.stackWrite_ok (w : W) (o : Origin) (a : Nat) (bs : List Byte) (h : w.s.mem.ok = true) :
    (W.stackWrite w o a bs).1.s.mem.ok = true := by
  simp only [W.stackWrite]; (repeat' split) <;> simp [h]

@[simp] theorem W.stackWrite_still (w : W) (o : Origin) (a : Nat) (bs : List Byte) :
    (W.stackWrite w o a bs).1.s.pk = w.s.pk ∧ (W.stackWrite w o a bs).1.s.sec = w.s.sec := by
  simp only [W.stackWrite]; (repeat' split) <;> simp

@[simp] theorem W.serveReject_pending (w : W) (o : Origin) (cause a : Nat) :
    (W.serveReject w o cause a).1.s.pending = w.s.pending := by
  simp [W.serveReject]

@[simp] theorem W.serveReject_ok (w : W) (o : Origin) (cause a : Nat) (h : w.s.mem.ok = true) :
    (W.serveReject w o cause a).1.s.mem.ok = true := by
  simp [W.serveReject, h]

@[simp] theorem W.serveReject_still (w : W) (o : Origin) (cause a : Nat) :
    (W.serveReject w o cause a).1.s.pk = w.s.pk ∧ (W.serveReject w o cause a).1.s.sec = w.s.sec := by
  simp [W.serveReject]

@[simp] theorem W.serveRead_pending (w : W) (o : Origin) (a n : Nat) (x : StreamReq) :
    (W.serveRead w o a n x).1.s.pending = w.s.pending := by
  simp only [W.serveRead]; (repeat' split) <;> simp

@[simp] theorem W.serveRead_ok (w : W) (o : Origin) (a n : Nat) (x : StreamReq) (h : w.s.mem.ok = true) :
    (W.serveRead w o a n x).1.s.mem.ok = true := by
  simp only [W.serveRead]; (repeat' split) <;> simp [h]

@[simp] theorem W.serveRead_still (w : W) (o : Origin) (a n : Nat) (x : StreamReq) :
    (W.serveRead w o a n x).1.s.pk = w.s.pk ∧ (W.serveRead w o a n x).1.s.sec = w.s.sec := by
  simp only [W.serveRead]; (repeat' split) <;> simp

@[simp] theorem W.serveWrite_pending (w : W) (o : Origin) (a : Nat) (bs : List Byte) (x : StreamReq) :
    (W.serveWrite w o a bs x).1.s.pending = w.s.pending := by
  simp only [W.serveWrite]; (repeat' split) <;> simp

@[simp] theorem W.serveWrite_ok (w : W) (o : Origin) (a : Nat) (bs : List Byte) (x : StreamReq)
    (h : w.s.mem.ok = true) :
    (W.serveWrite w o a bs x).1.s.mem.ok = true := by
  simp only [W.serveWrite]; (repeat' split) <;> simp [h]

@[simp] theorem W.serveWrite_stepping (w : W) (o : Origin) (a : Nat) (bs : List Byte) (x : StreamReq) :
    (W.serveWrite w o a bs x).1.s.pk.stepping = w.s.pk.stepping := by
  simp only [W.serveWrite]; (repeat' split) <;> simp

@[simp] theorem W.serveAtom_pending (w : W) (o : Origin) (a : Nat) (x : StreamReq) :
    (W.serveAtom w o a x).1.s.pending = w.s.pending := by
  simp only [W.serveAtom]; (repeat' split) <;> simp

@[simp] theorem W.serveAtom_ok (w : W) (o : Origin) (a : Nat) (x : StreamReq) (h : w.s.mem.ok = true) :
    (W.serveAtom w o a x).1.s.mem.ok = true := by
  simp only [W.serveAtom]; (repeat' split) <;> simp [h]

@[simp] theorem W.serveAtom_still (w : W) (o : Origin) (a : Nat) (x : StreamReq) :
    (W.serveAtom w o a x).1.s.pk = w.s.pk ∧ (W.serveAtom w o a x).1.s.sec = w.s.sec := by
  simp only [W.serveAtom]; (repeat' split) <;> simp

@[simp] theorem W.serveHere_pending (w : W) (o : Origin) (x : StreamReq) :
    (W.serveHere w o x).1.s.pending = w.s.pending := by
  simp only [W.serveHere]; (repeat' split) <;> simp

@[simp] theorem W.serveHere_ok (w : W) (o : Origin) (x : StreamReq) (h : w.s.mem.ok = true) :
    (W.serveHere w o x).1.s.mem.ok = true := by
  simp only [W.serveHere]; (repeat' split) <;> simp [h]

@[simp] theorem W.serveHere_stepping (w : W) (o : Origin) (x : StreamReq) :
    (W.serveHere w o x).1.s.pk.stepping = w.s.pk.stepping := by
  simp only [W.serveHere]; (repeat' split) <;> simp

@[simp] theorem W.forward_frame (w : W) (o : Origin) (x : StreamReq) :
    (W.forward w o x).s.mem = w.s.mem ∧ (W.forward w o x).s.pending = w.s.pending := by
  simp only [W.forward]; (repeat' split) <;> simp

@[simp] theorem W.forward_still (w : W) (o : Origin) (x : StreamReq) :
    (W.forward w o x).s.pk = w.s.pk ∧ (W.forward w o x).s.sec = w.s.sec := by
  simp only [W.forward]; (repeat' split) <;> simp

@[simp] theorem State.setStream_frame (s : State) (y : Stream) :
    (State.setStream s y).mem = s.mem ∧ (State.setStream s y).pending = s.pending := by
  simp [State.setStream]

@[simp] theorem State.setStream_still (s : State) (y : Stream) :
    (State.setStream s y).pk = s.pk ∧ (State.setStream s y).sec = s.sec := by
  simp [State.setStream]

@[simp] theorem State.chainAbort_pending (s : State) (k : Fin 64) (t : Nat) :
    (State.chainAbort s k t).pending = s.pending := by
  simp only [State.chainAbort]; (repeat' split) <;> simp

@[simp] theorem State.chainAbort_ok (s : State) (k : Fin 64) (t : Nat) (h : s.mem.ok = true) :
    (State.chainAbort s k t).mem.ok = true := by
  simp only [State.chainAbort]; (repeat' split) <;> simp [h]

@[simp] theorem State.chainAbort_still (s : State) (k : Fin 64) (t : Nat) :
    (State.chainAbort s k t).pk = s.pk ∧ (State.chainAbort s k t).sec = s.sec := by
  simp only [State.chainAbort]; (repeat' split) <;> simp

@[simp] theorem State.takeChain_pending (s : State) (proto : Nat) (payload : List Byte) :
    (State.takeChain s proto payload).pending = s.pending := by
  simp only [State.takeChain]; (repeat' split) <;> simp

@[simp] theorem State.takeChain_ok (s : State) (proto : Nat) (payload : List Byte) (h : s.mem.ok = true) :
    (State.takeChain s proto payload).mem.ok = true := by
  simp only [State.takeChain]; (repeat' split) <;> simp [h]

@[simp] theorem State.takeChain_still (s : State) (proto : Nat) (payload : List Byte) :
    (State.takeChain s proto payload).pk = s.pk ∧ (State.takeChain s proto payload).sec = s.sec := by
  simp only [State.takeChain]; (repeat' split) <;> simp

@[simp] theorem State.takeReadData_frame (s : State) (p : Port) (tag : BitVec 14) :
    (State.takeReadData s p tag).1.mem = s.mem ∧ (State.takeReadData s p tag).1.pending = s.pending := by
  simp [State.takeReadData]

@[simp] theorem State.takeReadData_still (s : State) (p : Port) (tag : BitVec 14) :
    (State.takeReadData s p tag).1.pk = s.pk ∧ (State.takeReadData s p tag).1.sec = s.sec := by
  simp [State.takeReadData]

@[simp] theorem State.stackPost_frame (s : State) (way : Fin 2) (op adr len : Nat) (data : List Byte) :
    (State.stackPost s way op adr len data).mem = s.mem ∧
      (State.stackPost s way op adr len data).pending = s.pending := by
  simp only [State.stackPost]; (repeat' split) <;> simp

@[simp] theorem State.stackPost_still (s : State) (way : Fin 2) (op adr len : Nat) (data : List Byte) :
    (State.stackPost s way op adr len data).pk = s.pk ∧ (State.stackPost s way op adr len data).sec = s.sec := by
  simp only [State.stackPost]; (repeat' split) <;> simp

@[simp] theorem W.write8_pending (w : W) (r : Region) (a v : Nat) :
    (W.write8 w r a v).1.s.pending = w.s.pending := by
  simp only [W.write8]; (repeat' split) <;> simp

@[simp] theorem W.write8_ok (w : W) (r : Region) (a v : Nat) (h : w.s.mem.ok = true) :
    (W.write8 w r a v).1.s.mem.ok = true := by
  simp only [W.write8]; (repeat' split) <;> simp [h]

@[simp] theorem W.write8_stepping (w : W) (r : Region) (a v : Nat) :
    (W.write8 w r a v).1.s.pk.stepping = w.s.pk.stepping := by
  simp only [W.write8]; (repeat' split) <;> simp

@[simp] theorem W.signal_pending (w : W) (r : Region) (a v : Nat) :
    (W.signal w r a v).1.s.pending = w.s.pending := by
  simp only [W.signal]; (repeat' split) <;> simp

@[simp] theorem W.signal_ok (w : W) (r : Region) (a v : Nat) (h : w.s.mem.ok = true) :
    (W.signal w r a v).1.s.mem.ok = true := by
  simp only [W.signal]; (repeat' split) <;> simp [h]

@[simp] theorem W.signal_stepping (w : W) (r : Region) (a v : Nat) :
    (W.signal w r a v).1.s.pk.stepping = w.s.pk.stepping := by
  simp only [W.signal]; (repeat' split) <;> simp

@[simp] theorem W.endHold_pending (w : W) (r : Region) (i : RingNo) (f : RecRef) (bs : List Byte) :
    (W.endHold w r i f bs).s.pending = w.s.pending := by
  simp only [W.endHold]; (repeat' split) <;> simp

@[simp] theorem W.endHold_ok (w : W) (r : Region) (i : RingNo) (f : RecRef) (bs : List Byte) (h : w.s.mem.ok = true) :
    (W.endHold w r i f bs).s.mem.ok = true := by
  simp only [W.endHold]; (repeat' split) <;> simp (maxDischargeDepth := 20) +contextual [h]

@[simp] theorem W.endHold_stepping (w : W) (r : Region) (i : RingNo) (f : RecRef) (bs : List Byte) :
    (W.endHold w r i f bs).s.pk.stepping = w.s.pk.stepping := by
  simp only [W.endHold]; (repeat' split) <;> simp

@[simp] theorem W.answered_pending (o : Origin) (x : StreamReq) (y : Reply) :
    (W.answered o x y).s.pending = y.1.s.pending := by
  simp only [W.answered]; (repeat' split) <;> simp

@[simp] theorem W.answered_ok (o : Origin) (x : StreamReq) (y : Reply) (h : y.1.s.mem.ok = true) :
    (W.answered o x y).s.mem.ok = true := by
  simp only [W.answered]; (repeat' split) <;> simp [h]

@[simp] theorem W.answered_stepping (o : Origin) (x : StreamReq) (y : Reply) :
    (W.answered o x y).s.pk.stepping = y.1.s.pk.stepping := by
  simp only [W.answered]; (repeat' split) <;> simp

@[simp] theorem W.gate_pending (w : W) (o : Origin) (x : StreamReq) :
    (W.gate w o x).s.pending = w.s.pending := by
  simp only [W.gate]; (repeat' split) <;> simp

@[simp] theorem W.gate_ok (w : W) (o : Origin) (x : StreamReq) (h : w.s.mem.ok = true) :
    (W.gate w o x).s.mem.ok = true := by
  simp only [W.gate]; (repeat' split) <;> simp [h]

@[simp] theorem W.gate_stepping (w : W) (o : Origin) (x : StreamReq) :
    (W.gate w o x).s.pk.stepping = w.s.pk.stepping := by
  simp only [W.gate]; (repeat' split) <;> simp

@[simp] theorem W.runReq_pending (w : W) (p : Port) (x : StreamReq) :
    (W.runReq w p x).s.pending = w.s.pending := by
  simp only [W.runReq]; (repeat' split) <;> simp

@[simp] theorem W.runReq_ok (w : W) (p : Port) (x : StreamReq) (h : w.s.mem.ok = true) :
    (W.runReq w p x).s.mem.ok = true := by
  simp only [W.runReq]; (repeat' split) <;> simp [h]

@[simp] theorem W.runReq_stepping (w : W) (p : Port) (x : StreamReq) :
    (W.runReq w p x).s.pk.stepping = w.s.pk.stepping := by
  simp only [W.runReq]; (repeat' split) <;> simp

@[simp] theorem W.ordered_pending (w : W) (p : Port) (x : StreamReq) :
    (W.ordered w p x).s.pending = w.s.pending := by
  simp only [W.ordered]; (repeat' split) <;> simp

@[simp] theorem W.ordered_ok (w : W) (p : Port) (x : StreamReq) (h : w.s.mem.ok = true) :
    (W.ordered w p x).s.mem.ok = true := by
  simp only [W.ordered]; (repeat' split) <;> simp [h]

@[simp] theorem W.ordered_stepping (w : W) (p : Port) (x : StreamReq) :
    (W.ordered w p x).s.pk.stepping = w.s.pk.stepping := by
  simp only [W.ordered]; (repeat' split) <;> simp

@[simp] theorem W.act_pending (w : W) (p : Port) (m : RxMsg) :
    (W.act w p m).s.pending = w.s.pending := by
  simp only [W.act]; (repeat' split) <;> simp

@[simp] theorem W.act_ok (w : W) (p : Port) (m : RxMsg) (h : w.s.mem.ok = true) :
    (W.act w p m).s.mem.ok = true := by
  simp only [W.act]; (repeat' split) <;> simp [h]

@[simp] theorem W.act_stepping (w : W) (p : Port) (m : RxMsg) :
    (W.act w p m).s.pk.stepping = w.s.pk.stepping := by
  simp only [W.act]; (repeat' split) <;> simp

@[simp] theorem W.actOn_pending (w : W) (p : Port) (x2 : List RxMsg) :
    (W.actOn w p x2).1.s.pending = w.s.pending := by
  induction x2 generalizing w p with
  | nil => first | rfl | exact ⟨rfl, rfl⟩ | simp [W.actOn]
  | cons y ys ih => simp only [W.actOn]; (repeat' split) <;> simp (maxDischargeDepth := 20) [ih]

@[simp] theorem W.actOn_ok (w : W) (p : Port) (x2 : List RxMsg) (h : w.s.mem.ok = true) :
    (W.actOn w p x2).1.s.mem.ok = true := by
  induction x2 generalizing w p with
  | nil => first | exact h | simp [W.actOn, h]
  | cons y ys ih => simp only [W.actOn]; (repeat' split) <;> simp (maxDischargeDepth := 20) [ih, h]

@[simp] theorem W.actOn_stepping (w : W) (p : Port) (x2 : List RxMsg) :
    (W.actOn w p x2).1.s.pk.stepping = w.s.pk.stepping := by
  induction x2 generalizing w p with
  | nil => first | rfl | exact ⟨rfl, rfl⟩ | simp [W.actOn]
  | cons y ys ih => simp only [W.actOn]; (repeat' split) <;> simp (maxDischargeDepth := 20) [ih]

@[simp] theorem W.queueMsgs_pending (w : W) (p : Port) (ms : List RxMsg) :
    (W.queueMsgs w p ms).s.pending = w.s.pending := by
  simp only [W.queueMsgs]; (repeat' split) <;> simp

@[simp] theorem W.queueMsgs_ok (w : W) (p : Port) (ms : List RxMsg) (h : w.s.mem.ok = true) :
    (W.queueMsgs w p ms).s.mem.ok = true := by
  simp only [W.queueMsgs]; (repeat' split) <;> simp [h]

@[simp] theorem W.queueMsgs_stepping (w : W) (p : Port) (ms : List RxMsg) :
    (W.queueMsgs w p ms).s.pk.stepping = w.s.pk.stepping := by
  simp only [W.queueMsgs]; (repeat' split) <;> simp

@[simp] theorem W.settleInbox_pending (w : W) (p : Port) :
    (W.settleInbox w p).s.pending = w.s.pending := by
  simp [W.settleInbox]

@[simp] theorem W.settleInbox_ok (w : W) (p : Port) (h : w.s.mem.ok = true) :
    (W.settleInbox w p).s.mem.ok = true := by
  simp only [W.settleInbox]; (repeat' split) <;> simp (maxDischargeDepth := 20) +contextual [h]

@[simp] theorem W.settleInbox_stepping (w : W) (p : Port) :
    (W.settleInbox w p).s.pk.stepping = w.s.pk.stepping := by
  simp [W.settleInbox]

@[simp] theorem W.arrive_pending (w : W) (p : Port) (op atop : Nat) (q : Req) (tdo : W64) :
    (W.arrive w p op atop q tdo).s.pending = w.s.pending := by
  simp only [W.arrive]; (repeat' split) <;> simp

@[simp] theorem W.arrive_ok (w : W) (p : Port) (op atop : Nat) (q : Req) (tdo : W64) (h : w.s.mem.ok = true) :
    (W.arrive w p op atop q tdo).s.mem.ok = true := by
  simp only [W.arrive]; (repeat' split) <;> simp [h]

@[simp] theorem W.arrive_stepping (w : W) (p : Port) (op atop : Nat) (q : Req) (tdo : W64) :
    (W.arrive w p op atop q tdo).s.pk.stepping = w.s.pk.stepping := by
  simp only [W.arrive]; (repeat' split) <;> simp

/-! ## Machine/Receive -/

@[simp] theorem State.forwardPayload_frame (s : State) (p : Port) (f : TxFlit) :
    (State.forwardPayload s p f).mem = s.mem ∧ (State.forwardPayload s p f).pending = s.pending := by
  simp only [State.forwardPayload]; (repeat' split) <;> simp

@[simp] theorem State.forwardPayload_still (s : State) (p : Port) (f : TxFlit) :
    (State.forwardPayload s p f).pk = s.pk ∧ (State.forwardPayload s p f).sec = s.sec := by
  simp only [State.forwardPayload]; (repeat' split) <;> simp

@[simp] theorem W.control_pending (w : W) (b : BundleNo) (msg : List Byte) :
    (W.control w b msg).s.pending = w.s.pending := by
  simp only [W.control]; (repeat' split) <;> simp

@[simp] theorem W.control_ok (w : W) (b : BundleNo) (msg : List Byte) (h : w.s.mem.ok = true) :
    (W.control w b msg).s.mem.ok = true := by
  simp only [W.control]; (repeat' split) <;> simp [h]

@[simp] theorem W.control_sec (w : W) (b : BundleNo) (msg : List Byte) :
    (W.control w b msg).s.sec = w.s.sec := by
  simp only [W.control]; (repeat' split) <;> simp

@[simp] theorem W.control_stepping (w : W) (b : BundleNo) (msg : List Byte) :
    (W.control w b msg).s.pk.stepping = w.s.pk.stepping := by
  simp only [W.control]; (repeat' split) <;> simp

@[simp] theorem State.nak_frame (s : State) (b : BundleNo) :
    (State.nak s b).mem = s.mem ∧ (State.nak s b).pending = s.pending := by
  simp only [State.nak]; (repeat' split) <;> simp

@[simp] theorem State.nak_still (s : State) (b : BundleNo) :
    (State.nak s b).pk = s.pk ∧ (State.nak s b).sec = s.sec := by
  simp only [State.nak]; (repeat' split) <;> simp

@[simp] theorem State.badFlit_frame (s : State) (b : BundleNo) :
    (State.badFlit s b).mem = s.mem ∧ (State.badFlit s b).pending = s.pending := by
  simp only [State.badFlit]; (repeat' split) <;> simp

@[simp] theorem State.badFlit_still (s : State) (b : BundleNo) :
    (State.badFlit s b).pk = s.pk ∧ (State.badFlit s b).sec = s.sec := by
  simp only [State.badFlit]; (repeat' split) <;> simp

@[simp] theorem State.takeCap_frame (s : State) (p : Port) (m : RxMsg) :
    (State.takeCap s p m).mem = s.mem ∧ (State.takeCap s p m).pending = s.pending := by
  simp only [State.takeCap]; (repeat' split) <;> simp

@[simp] theorem State.takeCap_still (s : State) (p : Port) (m : RxMsg) :
    (State.takeCap s p m).pk = s.pk ∧ (State.takeCap s p m).sec = s.sec := by
  simp only [State.takeCap]; (repeat' split) <;> simp

@[simp] theorem W.acceptData_pending (w : W) (p : Port) (f : TxFlit) :
    (W.acceptData w p f).s.pending = w.s.pending := by
  simp only [W.acceptData]; (repeat' split) <;> simp

@[simp] theorem W.acceptData_ok (w : W) (p : Port) (f : TxFlit) (h : w.s.mem.ok = true) :
    (W.acceptData w p f).s.mem.ok = true := by
  simp only [W.acceptData]; (repeat' split) <;> simp [h]

@[simp] theorem W.acceptData_stepping (w : W) (p : Port) (f : TxFlit) :
    (W.acceptData w p f).s.pk.stepping = w.s.pk.stepping := by
  simp only [W.acceptData]; (repeat' split) <;> simp

@[simp] theorem W.takeData_pending (w : W) (b : BundleNo) (seq : BitVec 12) (f : TxFlit) :
    (W.takeData w b seq f).s.pending = w.s.pending := by
  simp only [W.takeData]; (repeat' split) <;> simp

@[simp] theorem W.takeData_ok (w : W) (b : BundleNo) (seq : BitVec 12) (f : TxFlit) (h : w.s.mem.ok = true) :
    (W.takeData w b seq f).s.mem.ok = true := by
  simp only [W.takeData]; (repeat' split) <;> simp [h]

@[simp] theorem W.takeData_stepping (w : W) (b : BundleNo) (seq : BitVec 12) (f : TxFlit) :
    (W.takeData w b seq f).s.pk.stepping = w.s.pk.stepping := by
  simp only [W.takeData]; (repeat' split) <;> simp

@[simp] theorem W.goodFlit_pending (w : W) (b : BundleNo) (head : Nat) (payload : List Byte) :
    (W.goodFlit w b head payload).s.pending = w.s.pending := by
  simp only [W.goodFlit]; (repeat' split) <;> simp

@[simp] theorem W.goodFlit_ok (w : W) (b : BundleNo) (head : Nat) (payload : List Byte) (h : w.s.mem.ok = true) :
    (W.goodFlit w b head payload).s.mem.ok = true := by
  simp only [W.goodFlit]; (repeat' split) <;> simp [h]

@[simp] theorem W.goodFlit_stepping (w : W) (b : BundleNo) (head : Nat) (payload : List Byte) :
    (W.goodFlit w b head payload).s.pk.stepping = w.s.pk.stepping := by
  simp only [W.goodFlit]; (repeat' split) <;> simp

/-- Taking the record being issued out of the controller leaves queue, memories and registers. -/
theorem State.takeCurrent_frame {s : State} {r : Region} {op : Nat} {x : Current × State}
    (h : s.takeCurrent r op = some x) :
    x.2.mem = s.mem ∧ x.2.pending = s.pending ∧ x.2.pk = s.pk ∧ x.2.sec = s.sec := by
  simp only [State.takeCurrent] at h
  split at h
  · split at h
    · cases h; simp
    · cases h
  · cases h

theorem W.takeRsp_pending (w : W) (p : Port) (op : Nat) (tag : BitVec 14) (st : Status) (f : W → Nat → W)
    (hf : ∀ w n, (f w n).s.pending = w.s.pending) : (w.takeRsp p op tag st f).s.pending = w.s.pending := by
  simp only [W.takeRsp]; (repeat' split) <;> simp [hf]

theorem W.takeRsp_ok (w : W) (p : Port) (op : Nat) (tag : BitVec 14) (st : Status) (f : W → Nat → W)
    (hf : ∀ w n, w.s.mem.ok = true → (f w n).s.mem.ok = true) (h : w.s.mem.ok = true) :
    (w.takeRsp p op tag st f).s.mem.ok = true := by
  simp only [W.takeRsp]; (repeat' split) <;> simp [hf, h]

theorem W.takeRsp_stepping (w : W) (p : Port) (op : Nat) (tag : BitVec 14) (st : Status) (f : W → Nat → W)
    (hf : ∀ w n, (f w n).s.pk.stepping = w.s.pk.stepping) :
    (w.takeRsp p op tag st f).s.pk.stepping = w.s.pk.stepping := by
  simp only [W.takeRsp]; (repeat' split) <;> simp [hf]

end Sys2Proof.Machine
end

