-- ==== Sys2Proof/Laws/FrameStart.lean ====
section
/-! SUPPORT. What the operations of start-up keep. -/

namespace Sys2Proof.Machine

/-! ## Machine/Startup -/

@[simp] theorem State.driveClocks_frame (s : State) (on : Bool) :
    (State.driveClocks s on).mem = s.mem ∧ (State.driveClocks s on).pending = s.pending := by
  simp only [State.driveClocks]; (repeat' split) <;> simp

@[simp] theorem State.driveClocks_sec (s : State) (on : Bool) :
    (State.driveClocks s on).sec = s.sec := by
  simp only [State.driveClocks]; (repeat' split) <;> simp

@[simp] theorem State.driveClocks_stepping (s : State) (on : Bool) :
    (State.driveClocks s on).pk.stepping = s.pk.stepping := by
  simp only [State.driveClocks]; (repeat' split) <;> simp

@[simp] theorem State.beginTraining_frame (s : State) :
    (State.beginTraining s).mem = s.mem ∧ (State.beginTraining s).pending = s.pending := by
  simp [State.beginTraining]

@[simp] theorem State.beginTraining_sec (s : State) :
    (State.beginTraining s).sec = s.sec := by
  simp [State.beginTraining]

@[simp] theorem State.beginTraining_stepping (s : State) :
    (State.beginTraining s).pk.stepping = s.pk.stepping := by
  simp [State.beginTraining]

@[simp] theorem State.toReset_pending (s : State) : s.toReset.pending = s.pending := by
  simp [State.toReset]

@[simp] theorem State.toReset_ok (s : State) : s.toReset.mem.ok = true := by
  unfold State.toReset; rfl

@[simp] theorem State.toReset_stepping (s : State) : s.toReset.pk.stepping = s.pk.stepping := by
  unfold State.toReset; rfl

@[simp] theorem State.asLead_frame (s : State) (acting : Bool) :
    (State.asLead s acting).mem = s.mem ∧ (State.asLead s acting).pending = s.pending := by
  simp only [State.asLead]; (repeat' split) <;> simp

@[simp] theorem State.asLead_stepping (s : State) (acting : Bool) :
    (State.asLead s acting).pk.stepping = s.pk.stepping := by
  simp only [State.asLead]; (repeat' split) <;> simp

@[simp] theorem State.leaveReset_frame (s : State) :
    (State.leaveReset s).mem = s.mem ∧ (State.leaveReset s).pending = s.pending := by
  simp [State.leaveReset]

@[simp] theorem State.leaveReset_still (s : State) :
    (State.leaveReset s).pk = s.pk ∧ (State.leaveReset s).sec = s.sec := by
  simp [State.leaveReset]

@[simp] theorem W.done_frame (w : W) (n : Nat) :
    (W.done w n).s.mem = w.s.mem ∧ (W.done w n).s.pending = w.s.pending := by
  simp [W.done]

@[simp] theorem W.done_sec (w : W) (n : Nat) :
    (W.done w n).s.sec = w.s.sec := by
  simp [W.done]

@[simp] theorem W.done_stepping (w : W) (n : Nat) :
    (W.done w n).s.pk.stepping = w.s.pk.stepping := by
  simp [W.done]

@[simp] theorem W.haltHere_frame (w : W) (code detail : Nat) :
    (W.haltHere w code detail).s.mem = w.s.mem ∧ (W.haltHere w code detail).s.pending = w.s.pending := by
  simp [W.haltHere]

@[simp] theorem W.haltHere_sec (w : W) (code detail : Nat) :
    (W.haltHere w code detail).s.sec = w.s.sec := by
  simp [W.haltHere]

@[simp] theorem W.haltHere_stepping (w : W) (code detail : Nat) :
    (W.haltHere w code detail).s.pk.stepping = w.s.pk.stepping := by
  simp [W.haltHere]

@[simp] theorem W.haltAt_frame (w : W) (code low : Nat) :
    (W.haltAt w code low).s.mem = w.s.mem ∧ (W.haltAt w code low).s.pending = w.s.pending := by
  simp [W.haltAt]

@[simp] theorem W.haltAt_sec (w : W) (code low : Nat) :
    (W.haltAt w code low).s.sec = w.s.sec := by
  simp [W.haltAt]

@[simp] theorem W.haltAt_stepping (w : W) (code low : Nat) :
    (W.haltAt w code low).s.pk.stepping = w.s.pk.stepping := by
  simp [W.haltAt]

@[simp] theorem W.sigFail_pending (w : W) :
    (W.sigFail w).s.pending = w.s.pending := by
  simp [W.sigFail]

@[simp] theorem W.sigFail_ok (w : W) (h : w.s.mem.ok = true) :
    (W.sigFail w).s.mem.ok = true := by
  simp [W.sigFail, h]

@[simp] theorem W.sigFail_stepping (w : W) :
    (W.sigFail w).s.pk.stepping = w.s.pk.stepping := by
  simp [W.sigFail]

@[simp] theorem State.withLog_frame (s : State) (cells : List (Nat × Byte)) :
    (State.withLog s cells).mem = s.mem ∧ (State.withLog s cells).pending = s.pending := by
  simp [State.withLog]

@[simp] theorem State.withLog_still (s : State) (cells : List (Nat × Byte)) :
    (State.withLog s cells).pk = s.pk ∧ (State.withLog s cells).sec = s.sec := by
  simp [State.withLog]

@[simp] theorem State.takeFlash_frame (s : State) (cells : List (Nat × Byte)) :
    (State.takeFlash s cells).mem = s.mem ∧ (State.takeFlash s cells).pending = s.pending := by
  simp [State.takeFlash]

@[simp] theorem State.takeFlash_still (s : State) (cells : List (Nat × Byte)) :
    (State.takeFlash s cells).pk = s.pk ∧ (State.takeFlash s cells).sec = s.sec := by
  simp [State.takeFlash]

@[simp] theorem W.leadStep_pending (w : W) (e : StartEnv) :
    (W.leadStep w e).s.pending = w.s.pending := by
  simp only [W.leadStep]; (repeat' split) <;> simp

@[simp] theorem W.leadStep_ok (w : W) (e : StartEnv) (h : w.s.mem.ok = true) :
    (W.leadStep w e).s.mem.ok = true := by
  simp only [W.leadStep]; (repeat' split) <;> simp [h]

@[simp] theorem W.leadStep_stepping (w : W) (e : StartEnv) :
    (W.leadStep w e).s.pk.stepping = w.s.pk.stepping := by
  simp only [W.leadStep]; (repeat' split) <;> simp

@[simp] theorem W.discover_frame (w : W) (e : StartEnv) :
    (W.discover w e).s.mem = w.s.mem ∧ (W.discover w e).s.pending = w.s.pending := by
  simp only [W.discover]; (repeat' split) <;> simp

@[simp] theorem W.discover_sec (w : W) (e : StartEnv) :
    (W.discover w e).s.sec = w.s.sec := by
  simp only [W.discover]; (repeat' split) <;> simp

@[simp] theorem W.discover_stepping (w : W) (e : StartEnv) :
    (W.discover w e).s.pk.stepping = w.s.pk.stepping := by
  simp only [W.discover]; (repeat' split) <;> simp

@[simp] theorem W.capabilities_frame (w : W) (e : StartEnv) :
    (W.capabilities w e).s.mem = w.s.mem ∧ (W.capabilities w e).s.pending = w.s.pending := by
  simp only [W.capabilities]; (repeat' split) <;> simp

@[simp] theorem W.capabilities_sec (w : W) (e : StartEnv) :
    (W.capabilities w e).s.sec = w.s.sec := by
  simp only [W.capabilities]; (repeat' split) <;> simp

@[simp] theorem W.capabilities_stepping (w : W) (e : StartEnv) :
    (W.capabilities w e).s.pk.stepping = w.s.pk.stepping := by
  simp only [W.capabilities]; (repeat' split) <;> simp

@[simp] theorem State.mapStacks_frame (s : State) :
    (State.mapStacks s).mem = s.mem ∧ (State.mapStacks s).pending = s.pending := by
  simp [State.mapStacks]

@[simp] theorem State.mapStacks_still (s : State) :
    (State.mapStacks s).pk = s.pk ∧ (State.mapStacks s).sec = s.sec := by
  simp [State.mapStacks]

@[simp] theorem W.stacks_frame (w : W) :
    (W.stacks w).s.mem = w.s.mem ∧ (W.stacks w).s.pending = w.s.pending := by
  simp only [W.stacks]; (repeat' split) <;> simp

@[simp] theorem W.stacks_sec (w : W) :
    (W.stacks w).s.sec = w.s.sec := by
  simp only [W.stacks]; (repeat' split) <;> simp

@[simp] theorem W.stacks_stepping (w : W) :
    (W.stacks w).s.pk.stepping = w.s.pk.stepping := by
  simp only [W.stacks]; (repeat' split) <;> simp

@[simp] theorem State.fillLatch_frame (s : State) (seed : BitVec 256) :
    (State.fillLatch s seed).mem = s.mem ∧ (State.fillLatch s seed).pending = s.pending := by
  simp [State.fillLatch]

@[simp] theorem State.fillLatch_still (s : State) (seed : BitVec 256) :
    (State.fillLatch s seed).pk = s.pk ∧ (State.fillLatch s seed).sec = s.sec := by
  simp [State.fillLatch]

@[simp] theorem State.keysLive_frame (s : State) (e : StartEnv) (seed : BitVec 256) (bind : Option Binding)
    (pending bad : Bool) :
    (State.keysLive s e seed bind pending bad).mem = s.mem ∧
      (State.keysLive s e seed bind pending bad).pending = s.pending := by
  simp [State.keysLive]

@[simp] theorem State.keysLive_stepping (s : State) (e : StartEnv) (seed : BitVec 256) (bind : Option Binding)
    (pending bad : Bool) :
    (State.keysLive s e seed bind pending bad).pk.stepping = s.pk.stepping := by
  simp [State.keysLive]

@[simp] theorem State.loadCounts_frame (s : State) (totals : Option (List Byte)) :
    (State.loadCounts s totals).mem = s.mem ∧ (State.loadCounts s totals).pending = s.pending := by
  simp only [State.loadCounts]; (repeat' split) <;> simp

@[simp] theorem State.loadCounts_still (s : State) (totals : Option (List Byte)) :
    (State.loadCounts s totals).pk = s.pk ∧ (State.loadCounts s totals).sec = s.sec := by
  simp only [State.loadCounts]; (repeat' split) <;> simp

@[simp] theorem State.storeImage_frame (s : State) (e : StartEnv) :
    (State.storeImage s e).mem = s.mem ∧ (State.storeImage s e).pending = s.pending := by
  simp only [State.storeImage]; (repeat' split) <;> simp

@[simp] theorem State.storeImage_sec (s : State) (e : StartEnv) :
    (State.storeImage s e).sec = s.sec := by
  simp only [State.storeImage]; (repeat' split) <;> simp

@[simp] theorem State.storeImage_stepping (s : State) (e : StartEnv) :
    (State.storeImage s e).pk.stepping = s.pk.stepping := by
  simp only [State.storeImage]; (repeat' split) <;> simp

@[simp] theorem State.takeMirror_frame (s : State) (e : StartEnv) :
    (State.takeMirror s e).mem = s.mem ∧ (State.takeMirror s e).pending = s.pending := by
  simp only [State.takeMirror]; (repeat' split) <;> simp

@[simp] theorem State.takeMirror_still (s : State) (e : StartEnv) :
    (State.takeMirror s e).pk = s.pk ∧ (State.takeMirror s e).sec = s.sec := by
  simp only [State.takeMirror]; (repeat' split) <;> simp

@[simp] theorem State.takeGrade_frame (s : State) :
    (State.takeGrade s).mem = s.mem ∧ (State.takeGrade s).pending = s.pending := by
  simp only [State.takeGrade]; (repeat' split) <;> simp

@[simp] theorem State.takeGrade_sec (s : State) :
    (State.takeGrade s).sec = s.sec := by
  simp only [State.takeGrade]; (repeat' split) <;> simp

@[simp] theorem State.takeGrade_stepping (s : State) :
    (State.takeGrade s).pk.stepping = s.pk.stepping := by
  simp only [State.takeGrade]; (repeat' split) <;> simp

@[simp] theorem W.enrol_pending (w : W) (e : StartEnv) :
    (W.enrol w e).s.pending = w.s.pending := by
  simp only [W.enrol]; (repeat' split) <;> simp

@[simp] theorem W.enrol_ok (w : W) (e : StartEnv) (h : w.s.mem.ok = true) :
    (W.enrol w e).s.mem.ok = true := by
  simp only [W.enrol]; (repeat' split) <;> simp [h]

@[simp] theorem W.enrol_stepping (w : W) (e : StartEnv) :
    (W.enrol w e).s.pk.stepping = w.s.pk.stepping := by
  simp only [W.enrol]; (repeat' split) <;> simp

@[simp] theorem W.share_pending (w : W) (e : StartEnv) :
    (W.share w e).s.pending = w.s.pending := by
  simp only [W.share]; (repeat' split) <;> simp

@[simp] theorem W.share_ok (w : W) (e : StartEnv) (h : w.s.mem.ok = true) :
    (W.share w e).s.mem.ok = true := by
  simp only [W.share]; (repeat' split) <;> simp [h]

@[simp] theorem W.share_stepping (w : W) (e : StartEnv) :
    (W.share w e).s.pk.stepping = w.s.pk.stepping := by
  simp only [W.share]; (repeat' split) <;> simp

@[simp] theorem W.selfTest_ok (w : W) (e : StartEnv) (h : w.s.mem.ok = true) : (w.selfTest e).s.mem.ok = true := by
  unfold W.selfTest
  extract_lets w1
  have h1 : w1.s.mem.ok = true := by
    simp only [w1, W.on_s]
    refine foldl_ok _ (fun s r hs => ?_) _ _ (State.zeroShoal_ok _ (State.zeroLagoon_ok _ h))
    rw [State.onSites_mem]; exact hs
  split <;> simp [h1]

@[simp] theorem W.selfTest_pending (w : W) (e : StartEnv) :
    (W.selfTest w e).s.pending = w.s.pending := by
  simp only [W.selfTest]; (repeat' split) <;> simp

@[simp] theorem W.selfTest_sec (w : W) (e : StartEnv) :
    (W.selfTest w e).s.sec = w.s.sec := by
  simp only [W.selfTest]; (repeat' split) <;> simp

@[simp] theorem W.selfTest_stepping (w : W) (e : StartEnv) :
    (W.selfTest w e).s.pk.stepping = w.s.pk.stepping := by
  simp only [W.selfTest]; (repeat' split) <;> simp

@[simp] theorem W.reserveTest_frame (w : W) (e : StartEnv) :
    (W.reserveTest w e).s.mem = w.s.mem ∧ (W.reserveTest w e).s.pending = w.s.pending := by
  simp only [W.reserveTest]; (repeat' split) <;> simp

@[simp] theorem W.reserveTest_sec (w : W) (e : StartEnv) :
    (W.reserveTest w e).s.sec = w.s.sec := by
  simp only [W.reserveTest]; (repeat' split) <;> simp

@[simp] theorem W.reserveTest_stepping (w : W) (e : StartEnv) :
    (W.reserveTest w e).s.pk.stepping = w.s.pk.stepping := by
  simp only [W.reserveTest]; (repeat' split) <;> simp

@[simp] theorem State.settleRegion_frame (s : State) (r : Region) :
    (State.settleRegion s r).mem = s.mem ∧ (State.settleRegion s r).pending = s.pending := by
  simp only [State.settleRegion]; (repeat' split) <;> simp

@[simp] theorem State.settleRegion_still (s : State) (r : Region) :
    (State.settleRegion s r).pk = s.pk ∧ (State.settleRegion s r).sec = s.sec := by
  simp only [State.settleRegion]; (repeat' split) <;> simp

@[simp] theorem State.settleMaps_frame (s : State) :
    (State.settleMaps s).mem = s.mem ∧ (State.settleMaps s).pending = s.pending := by
  constructor <;> (simp only [State.settleMaps]; (try simp only []); (repeat' (first
      | done
      | (simp (maxDischargeDepth := 20) +contextual ; done)
      | with_reducible refine (foldl_mem _ (fun _ _ => ?_) _ _).trans ?_
      | with_reducible refine (foldl_pending _ (fun _ _ => ?_) _ _).trans ?_
      | split)))

@[simp] theorem State.settleMaps_still (s : State) :
    (State.settleMaps s).pk = s.pk ∧ (State.settleMaps s).sec = s.sec := by
  constructor <;> (simp only [State.settleMaps]; (try simp only []); (repeat' (first
      | done
      | (simp (maxDischargeDepth := 20) +contextual ; done)
      | with_reducible refine (foldl_pk _ (fun _ _ => ?_) _ _).trans ?_
      | with_reducible refine (foldl_sec _ (fun _ _ => ?_) _ _).trans ?_
      | split)))

@[simp] theorem W.settings_pending (w : W) :
    (W.settings w).s.pending = w.s.pending := by
  simp [W.settings]

@[simp] theorem W.settings_ok (w : W) (h : w.s.mem.ok = true) :
    (W.settings w).s.mem.ok = true := by
  simp only [W.settings]; (repeat' split) <;> simp (maxDischargeDepth := 20) +contextual [h]

@[simp] theorem State.loadFirmware_frame (s : State) :
    (State.loadFirmware s).mem = s.mem ∧ (State.loadFirmware s).pending = s.pending := by
  simp [State.loadFirmware]

@[simp] theorem State.loadFirmware_still (s : State) :
    (State.loadFirmware s).pk = s.pk ∧ (State.loadFirmware s).sec = s.sec := by
  simp [State.loadFirmware]

@[simp] theorem W.firmware_pending (w : W) (e : StartEnv) :
    (W.firmware w e).s.pending = w.s.pending := by
  simp only [W.firmware]; (repeat' split) <;> simp

@[simp] theorem W.firmware_ok (w : W) (e : StartEnv) (h : w.s.mem.ok = true) :
    (W.firmware w e).s.mem.ok = true := by
  simp only [W.firmware]; (repeat' split) <;> simp [h]

@[simp] theorem W.run_frame (w : W) (e : StartEnv) :
    (W.run w e).s.mem = w.s.mem ∧ (W.run w e).s.pending = w.s.pending := by
  simp only [W.run]; (repeat' split) <;> simp

@[simp] theorem W.run_sec (w : W) (e : StartEnv) :
    (W.run w e).s.sec = w.s.sec := by
  simp only [W.run]; (repeat' split) <;> simp

@[simp] theorem W.run_stepping (w : W) (e : StartEnv) :
    (W.run w e).s.pk.stepping = w.s.pk.stepping := by
  simp only [W.run]; (repeat' split) <;> simp

@[simp] theorem W.nextStep_pending (w : W) (e : StartEnv) :
    (W.nextStep w e).s.pending = w.s.pending := by
  simp only [W.nextStep]; (repeat' split) <;> simp

@[simp] theorem W.nextStep_ok (w : W) (e : StartEnv) (h : w.s.mem.ok = true) :
    (W.nextStep w e).s.mem.ok = true := by
  simp only [W.nextStep]; (repeat' split) <;> simp [h]

@[simp] theorem W.settings_stepping (w : W) : w.settings.s.pk.stepping = w.s.pk.stepping := by
  unfold W.settings
  simp only [W.on_s, State.mapStacks_still]
  exact foldl_W_stepping _ (fun _ _ => W.ctlWrite_stepping ..) _ _

@[simp] theorem W.firmware_stepping (w : W) (e : StartEnv) :
    (W.firmware w e).s.pk.stepping = w.s.pk.stepping := by
  simp only [W.firmware]; (repeat' split) <;> simp

@[simp] theorem W.nextStep_stepping (w : W) (e : StartEnv) :
    (W.nextStep w e).s.pk.stepping = w.s.pk.stepping := by
  simp only [W.nextStep]; (repeat' split) <;> simp

end Sys2Proof.Machine
end

