-- ==== Sys2Proof/Tests/Slice0.lean ====
section
/-! SUPPORT. The model's own tests: ill-formed commands are refused by the checks, small runs of single
commands, and for every statement a state and operands that meet its hypotheses. -/

namespace Sys2Proof.Tests

open Sys2Proof Sys2Proof.Machine

set_option maxRecDepth 100000
set_option exponentiation.threshold 600
set_option Elab.async false

/-! ## Small states -/

/-- A member that runs, every domain clocked, eight clusters in each region. -/
def up : State :=
  { State.reset with
    pk := { State.reset.pk with phase := .running, running := true, idValid := true, step := 17, rstLow := false,
                                pllLock := true },
    site := { State.reset.site with regions := Vector.replicate 8 ⟨8, 0xFF, 0xFF⟩ },
    power := { State.reset.power with st := .flood, regionsOn := 0xFF, clustersOn := BitVec.allOnes 64 } }

/-- The same as lead. -/
def lead : State := { up with pk := { up.pk with strap := 1, lead := true } }

/-- A lead whose start sequence stands after step `n`. -/
def starting (n : Nat) : State :=
  { State.reset with
    pk := { State.reset.pk with phase := .starting, strap := 1, lead := true, rstLow := false, step := BitVec.ofNat 5 n } }

/-- A member there. -/
def joining (n : Nat) : State :=
  { State.reset with pk := { State.reset.pk with phase := .starting, rstLow := false, step := BitVec.ofNat 5 n, idValid := true } }

/-- A start-up step that meets nothing amiss. -/
def startEnv : StartEnv :=
  { romOk := true, refclkOk := true, pllLock := true, trim := 5, flashOk := true, readOk := true, density := 0x1000000,
    flash := [], share := [], found := [], pkgFeat := 0, serial := 0, helper := [], records := [], powerOn := 0,
    baseFail := none, bonds := [], sitesOk := [], fwReady := [], othersReady := true, aoCycles := 0, env := Env.quiet }

/-! ## Witnesses: every statement's hypotheses hold together somewhere -/

theorem wit_StepRunsFrontCommand : State.reset.pending = [] := rfl

theorem wit_MemoriesStayCanonical : State.reset.mem.ok = true ∧ ∃ t, step State.reset = .next t := ⟨by decide, _, rfl⟩

theorem wit_AlarmSurvivesOperation : ∃ c : Instr, ∃ s t : State, s.pk.phase ≠ .inReset ∧ s.pk.phase ≠ .standbyWait ∧
    s.pk.phase ≠ .starting ∧ (∀ bt, c ≠ .powerLoss true bt) ∧ exec c s = .next t ∧ s.sec.alarm.getLsbD 3 = true :=
  ⟨.retireAck 2 0, { up with sec := { up.sec with alarm := 8 } }, _, by decide, by decide, by decide,
    (fun _ h => nomatch h), rfl, by decide⟩

theorem wit_SteppingIsHardWired : ∃ t, step State.reset = .next t := ⟨_, rfl⟩

theorem wit_ResetKeepsTheAlwaysOnDomain :
    (∃ s : State, s.pk.strap ≠ 0 ∧ s.power.st ≠ .off) ∧ (∃ s : State, s.pk.strap = 0) ∧
    (∃ s : State, s.pk.tree = true ∧ s.pk.lead = false ∧ s.upstreamAsleep = false) ∧
    (∃ s : State, s.upstreamAsleep = true) ∧ ∃ s : State, s.power.st = .off ∧ s.vault.btOff = true :=
  ⟨⟨lead, by decide, by decide⟩, ⟨up, by decide⟩,
    ⟨{ up with pk := { up.pk with tree := true, upPort := 2 } }, by decide⟩,
    ⟨{ up with pk := { up.pk with upPort := 2 } }.onBundle 48 fun b => { b with state := 4 }, by decide⟩,
    ⟨{ up with power := { up.power with st := .off }, vault := { up.vault with btOff := true } }, by decide⟩⟩

theorem wit_PowerLossTakesItsRails : ∃ ao bt : Bool, ao = true ∧ bt = false := ⟨true, false, rfl, rfl⟩

theorem wit_StrapSettlesTheRole : (State.reset.pk.phase = .inReset ∧ State.reset.power.st ≠ .off ∧
    State.reset.pk.rstLow = true ∧ State.reset.pk.pwrLow = true) ∧ up.pk.rstLow = false := by decide
theorem wit_StrapSettlesTheRole_warm : ∃ s : State, s.pk.phase = .inReset ∧ s.power.st ≠ .off ∧ s.pk.rstLow = true ∧
    s.pk.pwrLow = false ∧ s.sec.alarm ≠ 0 :=
  ⟨{ State.reset with pk := { State.reset.pk with pwrLow := false }, sec := { State.reset.sec with alarm := 0x80 } },
    by decide⟩
theorem wit_StrapSettlesTheRole_standby : (∃ s : State, s.pk.phase = .standbyWait ∧ s.pk.cold = true) ∧
    ∃ s : State, s.pk.phase = .standbyWait ∧ s.pk.cold = false ∧ s.sec.alarm ≠ 0 :=
  ⟨⟨{ State.reset with pk := { State.reset.pk with phase := .standbyWait, cold := true } }, by decide⟩,
    ⟨{ State.reset with pk := { State.reset.pk with phase := .standbyWait }, sec := { State.reset.sec with alarm := 1 } },
      by decide⟩⟩

theorem wit_ForwardedClockMakesAMember : ∃ s : State, s.takesClock = true ∧ isPeer 3 = true ∧ (3 : Port) ∈ [5, 3] ∧
    ∀ q ∈ ([5, 3] : List Port), isPeer q = true → (3 : Port) ≤ q :=
  ⟨{ State.reset with pk := { State.reset.pk with rstLow := false } }, by decide⟩

theorem wit_LeadStepsAdvance : (∃ s : State, s.pk.phase = .starting ∧ s.power.forced = true) ∧
    (starting 6).pk.phase = .starting ∧ (starting 6).power.forced = false ∧ (starting 6).pk.step = 6 :=
  ⟨⟨{ starting 6 with power := { (starting 6).power with forced := true } }, by decide⟩, by decide⟩
theorem wit_LeadStepsAdvance_rom : (starting 0).pk.step = 0 ∧ startEnv.romOk = true ∧
    { startEnv with romOk := false }.romOk = false := by decide
theorem wit_LeadStepsAdvance_refclk : (starting 1).pk.step = 1 ∧ startEnv.refclkOk = true ∧
    startEnv.pllLock = true ∧ { startEnv with refclkOk := false }.refclkOk = false := by decide
theorem wit_LeadStepsAdvance_flash : (starting 2).pk.step = 2 ∧ startEnv.flashOk = true ∧ startEnv.readOk = true ∧
    { startEnv with readOk := false }.readOk = false := by decide
/-- An image of one empty section, unsigned, with a log area of 8 MiB from 1 MiB on. -/
def plainImage : Mem :=
  [⟨0, 0x52⟩, ⟨1, 0x51⟩, ⟨2, 0x49⟩, ⟨3, 0x4D⟩, ⟨4, 1⟩, ⟨6, 1⟩, ⟨8, 0x40⟩, ⟨9, 1⟩, ⟨13, 1⟩, ⟨16, 0x30⟩, ⟨17, 1⟩, ⟨20, 0x10⟩,
   ⟨26, 0x10⟩, ⟨30, 0x80⟩, ⟨44, 0xb9⟩, ⟨45, 0x3a⟩, ⟨46, 0x8c⟩, ⟨47, 0x28⟩, ⟨252, 0x7e⟩, ⟨253, 0xc7⟩, ⟨254, 0xe9⟩, ⟨255, 0xd2⟩]
/-- Signed as it must be or not, it passes the checks before the signature. -/
theorem wit_LeadStepsAdvance_image : ∃ s : State, s.pk.phase = .starting ∧ s.power.forced = false ∧ s.pk.step = 3 ∧
    s.power.st ≠ .off ∧ imgHeaderOk s.site.image startEnv.density = true ∧ imgDirOk s.site.image = true :=
  ⟨{ starting 3 with site := { (starting 3).site with image := plainImage } }, by decide, by decide, by decide, by decide,
    by decide +kernel, by decide +kernel⟩
theorem wit_LeadStepsAdvance_header : (starting 3).pk.step = 3 ∧ imgHeaderOk (starting 3).site.image startEnv.density = false :=
  by decide +kernel
theorem wit_LeadStepsAdvance_digest : (starting 4).pk.step = 4 ∧ imgBadDigest (starting 4).site.image = none := by decide
/-- A topology section that names the lead alone. -/
def alone : Mem :=
  [⟨6, 1⟩, ⟨13, 1⟩, ⟨256, 1⟩, ⟨261, 2⟩, ⟨264, 128⟩, ⟨512, 128⟩, ⟨528, 1⟩, ⟨544, 2⟩, ⟨560, 3⟩, ⟨576, 4⟩, ⟨592, 5⟩, ⟨608, 6⟩, ⟨624, 7⟩]
theorem wit_LeadStepsAdvance_check : ∃ s : State, s.pk.phase = .starting ∧ s.power.forced = false ∧ s.pk.step = 5 ∧
    imageFault s.site.image = none :=
  ⟨{ starting 5 with site := { (starting 5).site with image := alone } }, by decide, by decide, by decide, by decide⟩
theorem wit_LeadStepsAdvance_member : (joining 7).pk.step = 7 ∧ (joining 7).trained = true ∧ (joining 8).pk.step = 8 ∧
    (joining 8).exchanged = true ∧ (joining 8).pk.lead = false ∧ (joining 8).pk.idValid = true ∧ (joining 9).pk.step = 9 ∧
    (joining 10).pk.step = 10 := by decide
theorem wit_LeadStepsAdvance_late : (∃ s : State, s.pk.phase = .starting ∧ s.pk.step = 10 ∧ s.stackFailed 0 = false) ∧
    (joining 12).pk.step = 12 ∧ startEnv.baseFail = none ∧ isthFault startEnv.bonds = none ∧
    { startEnv with baseFail := some 3 }.baseFail = some 3 ∧ (joining 14).pk.step = 14 ∧ (joining 16).pk.step = 16 ∧
    (joining 16).pk.lead = false ∧ startEnv.othersReady = true :=
  ⟨⟨(joining 10).onPort 0 fun q => { q with state := 2 }, by decide⟩, by decide⟩

theorem wit_StartLimitsHalt : (starting 1).pk.phase = .starting ∧ (starting 1).power.forced = false ∧
    (starting 1).pk.lead = true ∧ (starting 1).pk.step = 1 ∧ (joining 1).pk.lead = false := by decide
theorem wit_StartLimitsHalt_firmware : ∃ s : State, s.pk.phase = .starting ∧ s.power.forced = false ∧ s.pk.step = 15 ∧
    s.site.fwStarted = 0xFF ∧ s.site.fwReady.getLsbD 7 = false :=
  ⟨{ starting 15 with site := { (starting 15).site with fwStarted := 0xFF } }, by decide⟩
theorem wit_StartLimitsHalt_stack : ∃ s : State, s.pk.phase = .starting ∧ s.power.forced = false ∧ s.pk.step = 10 ∧
    s.site.stackBad.getLsbD 1 = true :=
  ⟨{ starting 10 with site := { (starting 10).site with stackBad := 2 } }, by decide⟩
theorem wit_StartLimitsHalt_report : (3#8) ≠ 9 ∧ (0#3).toNat < (7#3).toNat := by decide

theorem wit_StackAndClockLosses : ∃ s : State, s.pk.phase = .starting ∧ s.power.forced = false ∧ s.pk.step = 10 ∧
    s.site.stackBad = 0 ∧ (s.port 1).state = 2 :=
  ⟨(starting 10).onPort 1 fun q => { q with state := 2 }, by decide⟩
theorem wit_StackAndClockLosses_refclk : (∃ s : State, s.pk.lead = true ∧ s.pk.refclkOk = true ∧ s.pk.tree = true) ∧
    ∃ s : State, s.pk.lead = true ∧ s.pk.refclkOk = true ∧ s.pk.tree = false ∧ s.pk.phase = .starting :=
  ⟨⟨{ lead with pk := { lead.pk with refclkOk := true, tree := true } }, by decide⟩,
    ⟨{ starting 3 with pk := { (starting 3).pk with refclkOk := true } }, by decide⟩⟩

theorem wit_PkAssignNamesOnce : ∃ s : State, s.pk.idValid = false ∧ s.pk.phase = .starting ∧ s.pk.lead = false ∧
    s.sec.alarm ≠ 0 :=
  ⟨{ State.reset with pk := { State.reset.pk with phase := .starting }, sec := { State.reset.sec with alarm := 1 } },
    by decide⟩
theorem wit_PkAssignNamesOnce_named : up.pk.idValid = true ∧ up.pk.lead = false ∧ up.pk.phase ≠ .starting := by decide
theorem wit_PkAssignNamesOnce_twoLeads : ∃ s : State, s.pk.phase = .starting ∧ s.pk.lead = true ∧ s.pk.tree = true :=
  ⟨{ starting 8 with pk := { (starting 8).pk with tree := true } }, by decide⟩

theorem wit_TrainingAdvances : ∃ s : State, (s.bundle 81).state = 1 ∧ (s.bundle 81).step = 1 :=
  ⟨up.onBundle 81 fun x => { x with state := 1, step := 1 }, by decide⟩
theorem wit_TrainingAdvances_align : ∃ s : State, (s.bundle 81).state = 1 ∧ (s.bundle 81).step = 4 :=
  ⟨up.onBundle 81 fun x => { x with state := 1, step := 4 }, by decide⟩
theorem wit_TrainingAdvances_accept : ∃ s : State, (s.bundle 0).state = 1 ∧ (s.bundle 0).step = 6 ∧
    (s.bundle 0).mapGot = false := ⟨up.onBundle 0 fun x => { x with state := 1, step := 6 }, by decide⟩

/-- Bundle 0 that has sent its map and waits for the partner's. -/
def mapping (sent : Bool) (rx : LaneMap) : State :=
  up.onBundle 0 fun x => { x with state := 1, step := 7, mapSent := sent, rxNew := rx }
/-- The map message of a direction without a failed lane, as a bundle whose lanes all vote reads it. -/
def mapWord0 : W64 := mapWord { Bundle.reset with rxNew := ⟨0, 0⟩ }
theorem wit_MapsLeadToSyncOrRetirement : ((mapping true ⟨0, 0⟩).bundle 0).voters ≠ [] ∧ mapGood mapWord0 = true ∧
    ((mapping true ⟨0, 0⟩).bundle 0).state = 1 ∧ ((mapping true ⟨0, 0⟩).bundle 0).why = .training ∧
    4 ≤ ((mapping true ⟨0, 0⟩).bundle 0).step ∧ ((mapping true ⟨0, 0⟩).bundle 0).mapGot = false ∧
    ((mapping true ⟨0, 0⟩).bundle 0).mapSent = true ∧ ((mapping true ⟨0, 0⟩).bundle 0).rxNew.mode.toNat < 2 ∧
    (mapWord0.extractLsb' 34 2).toNat < 2 := by decide
theorem wit_MapsLeadToSyncOrRetirement_none : ((mapping true ⟨0, 0⟩).bundle 0).readMap [] = none ∧
    2 ≤ ((mapping true LaneMap.reset).bundle 0).rxNew.mode.toNat ∧ ((mapping false ⟨0, 0⟩).bundle 0).mapSent = false := by
  decide
theorem wit_MapsLeadToSyncOrRetirement_clock : ∃ s : State, (s.bundle 80).state = 1 ∧ (s.bundle 80).why = .training ∧
    (s.bundle 80).step = 1 ∧ 80 ∉ ([] : List BundleNo) ∧
    ∃ c ∈ portBundles (bundlePort 80), c ∈ ([] : List BundleNo) ∨ (s.bundle c).state ≠ 1 ∨ 1 < (s.bundle c).step :=
  ⟨up.onBundle 80 fun x => { x with state := 1, step := 1 }, by decide⟩
theorem wit_MapsLeadToSyncOrRetirement_noClock : ∃ s : State, (s.bundle 80).state = 1 ∧ (s.bundle 80).why = .training ∧
    (s.bundle 80).step = 1 ∧
    ∀ c ∈ portBundles (bundlePort 80), c ∉ ([] : List BundleNo) ∧ (s.bundle c).state = 1 ∧ (s.bundle c).step ≤ 1 :=
  ⟨(up.onBundle 80 fun x => { x with state := 1, step := 1 }).onBundle 81 fun x => { x with state := 1, step := 1 },
    by decide⟩
theorem wit_MapsLeadToSyncOrRetirement_sync : ∃ s : State, (s.bundle 80).state = 1 ∧ (s.bundle 80).why = .training ∧
    (s.bundle 80).syncing = true :=
  ⟨up.onBundle 80 fun x => { x with state := 1, step := 8, mapSent := true, mapGot := true }, by decide⟩

/-- A DATA flit with SEQ 0: an empty payload flit of class 0 for chiplet 0. -/
def dataFlit0 : List Byte := flitBytes 1 0 0xFFF false ⟨0x8000000000000000, []⟩
/-- An IDLE flit. -/
def idleFlit (ack : BitVec 12) (nak : Bool) : List Byte := flitBytes 0 0 ack nak ⟨0, []⟩
/-- Bundle 80 up, on an open harbour port, its lanes all good and its scramblers at 0. -/
def linked : State :=
  (up.onBundle 80 fun x => { x with state := 2, rx := ⟨0, 0⟩, tx := ⟨0, 0⟩ }).onPort 6 fun q => { q with state := 2 }
/-- The UI of a flit as that bundle's partner sends them. -/
def flitUis (flit : List Byte) : List (BitVec 36) :=
  (codeUis ⟨0, 0⟩ true (Vector.replicate 32 0) 1 (uiWords ⟨0, 0⟩ flit)).1
theorem wit_FlitsAreDeliveredOnceInOrder : (linked.bundle 80).state = 2 ∧
    FlitRead (linked.bundle 80) (flitUis dataFlit0) dataFlit0 1 0 0xFFF false ∧
    0 = (linked.bundle 80).expSeq ∧ protoKind (flitBody dataFlit0).proto = 2 ∧
    protoClass (flitBody dataFlit0).proto < 2 ∧ linked.passesOn (bundlePort 80) (flitBody dataFlit0) = false := by
  unfold FlitRead; decide +kernel
theorem wit_FlitsAreDeliveredOnceInOrder_lanes : (⟨1, 0⟩ : LaneMap).mode = modeOf 1 ∧ (0#2).toNat < 2 ∧
    modeOf 0xFF = 1 := by decide
/-- Bundle 80 that expects SEQ 65. -/
def late : State := linked.onBundle 80 fun x => { x with expSeq := 65 }
theorem wit_FlitsAreDeliveredOnceInOrder_gap : (late.bundle 80).state = 2 ∧
    FlitRead (late.bundle 80) (flitUis dataFlit0) dataFlit0 1 0 0xFFF false ∧ 0 ≠ (late.bundle 80).expSeq ∧
    64 ≤ ((late.bundle 80).expSeq - 1 - 0).toNat ∧ (late.bundle 80).nakFor ≠ some (late.bundle 80).expSeq := by
  unfold FlitRead; decide +kernel
theorem wit_FlitsAreDeliveredOnceInOrder_bad : (linked.bundle 80).state = 2 ∧ (linked.bundle 80).readFlit [] = none ∧
    (linked.bundle 80).badRun < 63 ∧ (linked.bundle 80).nakFor ≠ some (linked.bundle 80).expSeq := by decide
theorem wit_FlitsAreDeliveredOnceInOrder_run : ∃ s : State, (s.bundle 80).state = 2 ∧ 63 ≤ (s.bundle 80).badRun :=
  ⟨linked.onBundle 80 fun x => { x with badRun := 63 }, by decide⟩
theorem wit_FlitsAreDeliveredOnceInOrder_down : (up.bundle 80).state ≠ 2 ∧ (up.bundle 80).syncing = false := by decide
/-- Bundle 80 that syncs, with `n` good flits in a row. -/
def syncing (n : Nat) : State :=
  linked.onBundle 80 fun x => { x with state := 1, step := 8, mapSent := true, mapGot := true, goodRun := n }
theorem wit_FlitsAreDeliveredOnceInOrder_sync : ((syncing 15).bundle 80).syncing = true ∧
    ((syncing 15).bundle 80).why = .training ∧ ((syncing 15).bundle 80).diagAfter = false ∧
    FlitRead ((syncing 15).bundle 80) (flitUis (idleFlit 0xFFF false)) (idleFlit 0xFFF false) 0
      ((syncing 15).bundle 80).expSeq 0xFFF false ∧ ((syncing 15).bundle 80).readFlit [] = none ∧
    ((syncing 15).bundle 80).nakFor ≠ some ((syncing 15).bundle 80).expSeq := by unfold FlitRead; decide +kernel

/-- Bundle 80 with SEQ 5 held and replayed seven times. -/
def replayed : State := linked.onBundle 80 fun x => { x with held := [(5, ⟨0, []⟩)], replays := 7 }
theorem wit_EightReplaysBeginADiagnosis : (replayed.bundle 80).state = 2 ∧ (replayed.bundle 80).held ≠ [] ∧
    FlitRead (replayed.bundle 80) (flitUis (idleFlit 4 true)) (idleFlit 4 true) 0 (replayed.bundle 80).expSeq 4 true ∧
    ∀ f ∈ (replayed.bundle 80).held, f.1 ≠ 4 := by unfold FlitRead; decide +kernel
theorem wit_EightReplaysBeginADiagnosis_ack :
    FlitRead (replayed.bundle 80) (flitUis (idleFlit 5 false)) (idleFlit 5 false) 0 (replayed.bundle 80).expSeq 5 false ∧
    ∃ f ∈ (replayed.bundle 80).held, f.1 = 5 := by unfold FlitRead; decide +kernel

theorem wit_DiagnosisAndRetirement : (linked.bundle 80).state = 2 ∧ (up.bundle 80).state ≠ 2 := by decide
theorem wit_DiagnosisAndRetirement_check : ∃ s : State, (s.bundle 81).state = 3 ∧ (s.bundle 81).step = 3 ∧
    (s.bundle 81).mapGot = false ∧ ∃ c ∈ portBundles (bundlePort 81), c ≠ 81 ∧ ((s.bundle c).state = 2 ∨ (s.bundle c).state = 3) :=
  ⟨linked.onBundle 81 fun x => { x with state := 3, step := 3 }, by decide⟩
theorem wit_DiagnosisAndRetirement_last : ∃ s : State, (s.bundle 81).state = 3 ∧ (s.bundle 81).mapGot = false ∧
    (∀ c ∈ portBundles (bundlePort 81), c ≠ 81 → (s.bundle c).counted = false) ∧ s.outstanding = [] ∧
    s.proto.waiting = [] := ⟨up.onBundle 81 fun x => { x with state := 3, step := 3 }, by decide⟩
theorem wit_DiagnosisAndRetirement_retire : ∃ s : State, portBundle 6 (1#8).toNat = some 81 ∧ (s.bundle 81).state ≠ 0 ∧
    (s.port 6).state ≠ 4 ∧ ∃ c ∈ portBundles 6, c ≠ 81 ∧ (s.bundle c).counted = true :=
  ⟨linked.onBundle 81 fun x => { x with state := 2 }, by decide⟩

theorem wit_LowPowerKeepsTheLink : ∃ s : State, (s.bundle 80).state = 2 ∧ (s.bundle 80).held = [] ∧ (s.bundle 80).lp = 1 :=
  ⟨linked.onBundle 80 fun x => { x with lp := 1 }, by decide⟩
theorem wit_LowPowerKeepsTheLink_owed : ∃ s : State, (s.bundle 80).state = 2 ∧ (s.bundle 80).held = [] ∧
    (s.bundle 80).lp = 2 := ⟨linked.onBundle 80 fun x => { x with lp := 2 }, by decide⟩
theorem wit_LowPowerKeepsTheLink_asked : ∃ s : State, (s.bundle 80).state = 2 ∧ (s.bundle 80).lp = 3 ∧
    (∀ c ∈ portBundles (bundlePort 80), c ≠ 80 → (s.bundle c).state ≠ 2 ∧ (s.bundle c).state ≠ 3) ∧
    (s.port (bundlePort 80)).state = 2 := ⟨linked.onBundle 80 fun x => { x with lp := 3 }, by decide⟩
theorem wit_LowPowerKeepsTheLink_exit : (∃ s : State, (s.bundle 80).state = 4 ∧ (s.bundle 80).mapSent = false) ∧
    (0x400000000#36).getLsbD 34 = true := ⟨⟨linked.onBundle 80 fun x => { x with state := 4 }, by decide⟩, by decide⟩
theorem wit_LowPowerKeepsTheLink_held : (replayed.bundle 80).held ≠ [] ∧ (replayed.bundle 80).state = 2 ∧
    (replayed.bundle 80).lp ≠ 3 := by decide

/-- A message of these slots. -/
def msg (slots : List Nat) : RxMsg := ⟨slots.map (BitVec.ofNat 128)⟩
/-- Port 6 with that message alone in its inbox. -/
def got (s : State) (p : Port) (m : RxMsg) : State := s.onPort p fun q => { q with inbox := [[m]] }
/-- A CAP whose record has the profile byte `prof`. -/
def capMsg (prof : Nat) : RxMsg := msg [reqSlot 0x10 1 3 1 0 0 0 0, 2 ^ 40 * prof + 0x0B74, 0, 0]
theorem wit_CapabilitiesAndCredits : ((got linked 6 (capMsg 4)).port 6).inbox = [[capMsg 4]] ∧ (capMsg 4).op = 0x10 ∧
    ((got linked 6 (capMsg 4)).port 6).state = 2 ∧ testBit (sub (capMsg 4).record 5 1) (portProfile 6) = true ∧
    ∃ b ∈ portBundles 6, ((got linked 6 (capMsg 4)).bundle b).state = 2 := by decide
theorem wit_CapabilitiesAndCredits_profile : ((got linked 6 (capMsg 2)).port 6).state = 2 ∧
    testBit (sub (capMsg 2).record 5 1) (portProfile 6) = false ∧ (got linked 6 (capMsg 2)).outstanding = [] ∧
    (got linked 6 (capMsg 2)).proto.waiting = [] ∧ ((got up 6 (capMsg 2)).port 6).state ≠ 2 := by decide
theorem wit_CapabilitiesAndCredits_none : linked.due 6 (fun m => m.op == 0x10) = none ∧
    ∀ b ∈ portBundles 6, (up.bundle b).state ≠ 2 := by decide
theorem wit_CapabilitiesAndCredits_ack : ∃ (s : State) (m : RxMsg), (s.port 6).inbox = [[m]] ∧ m.op = 0x11 ∧
    (s.port 6).capSent = true :=
  ⟨(got linked 6 (msg [rspSlot 0x11 0 3 .ok 0])).onPort 6 fun q => { q with capSent := true }, _, rfl, by decide, by decide⟩
theorem wit_CapabilitiesAndCredits_waiting : ∃ s : State, (s.port 6).state = 2 ∧ (s.port 6).capSent = true ∧
    (s.port 6).capAcked = false ∧ s.outstanding = [] ∧ s.proto.waiting = [] :=
  ⟨linked.onPort 6 fun q => { q with capSent := true }, by decide⟩
theorem wit_CapabilitiesAndCredits_acked : ∃ s : State, (s.port 6).capAcked = true :=
  ⟨linked.onPort 6 fun q => { q with capAcked := true }, by decide⟩

/-- Peer port 2 open to an RQ-family chiplet, every feature in the package set. -/
def peered : State :=
  { up with proto := { up.proto with fence := 0x7B, pkgFeat := 0xFFFFFFFF } }.onPort 2 fun q => { q with state := 2 }
/-- A request of chiplet 1 for `n` bytes at lagoon offset `off`. -/
def ask (off n : Nat) : Req :=
  { src := 1, tag := 5, len := n, ostr := 0, oseq := 0, addr := BitVec.ofNat 56 (0x8000000000000 + off), op0 := 7, op1 := 0 }
/-- That request as an operation's message. -/
def asked (op atop : Nat) (q : Req) : RxMsg :=
  msg [reqSlot op q.src.toNat q.tag.toNat q.len q.ostr.toNat q.oseq.toNat atop q.addr.toNat,
    q.op0.toNat + q.op1.toNat * 2 ^ 64]
/-- `peered` with that request in its inbox, and 256 bytes of write data with it. -/
def asking (op atop : Nat) (q : Req) : State :=
  (got peered 2 (asked op atop q)).onPort 2 fun x => { x with payWait := [dataFlit 0 0 1 5 (List.replicate 256 9)] }
theorem wit_LagoonRequestsAreServed : AtPeer peered 2 (ask 0x3FFFFFF8 8) ∧ InBlock (ask 0x3FFFFFF8 8).addr.toNat 8 ∧
    peered.locate (ask 0x3FFFFFF8 8).addr.toNat = .lagoon 0x3FFFFFF8 ∧ CleanSpan Env.quiet peered 0x3FFFFFF8 8 ∧
    peered.hasFeature 2 = true ∧ (ask 0x3FFFFFF8 8).len ≤ 8 :=
  ⟨⟨by decide, by decide, by decide, by decide, by decide, by decide⟩, by unfold InBlock; decide, by decide,
    fun _ _ _ => ⟨rfl, rfl, nofun, nofun⟩, by decide, by decide⟩
theorem wit_LagoonRequestsAreServed_waits :
    (∀ op ∈ [1, 2, 3, 5, 8], AtPeer (asking op 0 (ask 0x3FFFFFF8 8)) 2 (ask 0x3FFFFFF8 8) ∧
      Waits (asking op 0 (ask 0x3FFFFFF8 8)) 2 op 0 (ask 0x3FFFFFF8 8)) ∧
    ∃ data, DataOf (asking 2 0 (ask 0x3FFFFFF8 8)) 2 (ask 0x3FFFFFF8 8) data := by
  refine ⟨?_, List.replicate 256 9, by unfold DataOf; decide⟩
  intro op h
  simp only [List.mem_cons, List.not_mem_nil, or_false] at h
  rcases h with rfl | rfl | rfl | rfl | rfl <;>
    exact ⟨⟨by decide, by decide, by decide, by decide, by decide, by decide⟩, _, rfl, by decide⟩
theorem wit_LagoonRequestsAreServed_poison : ∃ s : State, AtPeer s 2 (ask 64 64) ∧ s.locate (ask 64 64).addr.toNat = .lagoon 64 ∧
    64 / 64 * 64 = 64 ∧ (ask 64 64).len ≤ 64 ∧ s.poisoned (64 / 64) = true ∧ s.hasFeature 2 = false :=
  ⟨{ peered with mem := { peered.mem with poison := [1] }, proto := { peered.proto with pkgFeat := 0 } },
    ⟨by decide, by decide, by decide, by decide, by decide, by decide⟩, by decide, by decide, by decide, by decide, by decide⟩
theorem wit_LagoonRequestsAreServed_block : AtPeer peered 2 (ask 255 9) ∧ ¬ InBlock (ask 255 9).addr.toNat 9 ∧
    8 < (ask 255 9).len ∧ (peered.takePayload 2 0 (ask 255 9).src.toNat (ask 255 9).tag.toNat).2 = none :=
  ⟨⟨by decide, by decide, by decide, by decide, by decide, by decide⟩, by unfold InBlock; decide, by decide, by decide⟩

theorem wit_AtomicsAreOneAccess : AtPeer (asking 4 2 (ask 0x3FFFFFF8 8)) 2 (ask 0x3FFFFFF8 8) ∧ peered.hasFeature 0 = true ∧
    InBlock (ask 0x3FFFFFF8 8).addr.toNat 8 ∧ (ask 0x3FFFFFF8 8).addr.toNat % 8 = 0 ∧
    peered.locate (ask 0x3FFFFFF8 8).addr.toNat = .lagoon 0x3FFFFFF8 ∧ CleanSpan Env.quiet peered 0x3FFFFFF8 8 ∧
    Waits (asking 4 2 (ask 0x3FFFFFF8 8)) 2 4 2 (ask 0x3FFFFFF8 8) :=
  ⟨⟨by decide, by decide, by decide, by decide, by decide, by decide⟩, by decide, by unfold InBlock; decide, by decide,
    by decide, fun _ _ _ => ⟨rfl, rfl, nofun, nofun⟩, _, rfl, by decide⟩
theorem wit_AtomicsAreOneAccess_draw : AtPeer (asking 4 3 (ask 0x3004727F0 8)) 2 (ask 0x3004727F0 8) ∧
    peered.locate (ask 0x3004727F0 8).addr.toNat = .control 71 0x27F0 ∧ 71 = 64 + (7 : Region).1 ∧
    0x27F0 = 0x2000 + 16 * (127 : Fin 128).1 ∧ InBlock (ask 0x3004727F0 8).addr.toNat 8 ∧
    Waits (asking 4 3 (ask 0x3004727F0 8)) 2 4 3 (ask 0x3004727F0 8) :=
  ⟨⟨by decide, by decide, by decide, by decide, by decide, by decide⟩, by decide, by decide, by decide,
    by unfold InBlock; decide, _, rfl, by decide⟩
theorem wit_AtomicsAreOneAccess_misaligned : AtPeer peered 2 (ask 4 8) ∧ InBlock (ask 4 8).addr.toNat 8 ∧
    (ask 4 8).addr.toNat % 8 ≠ 0 :=
  ⟨⟨by decide, by decide, by decide, by decide, by decide, by decide⟩, by unfold InBlock; decide, by decide⟩

/-- The harbour port up, window 15 of it open on the lagoon from offset 4096 on. -/
def gated : State :=
  { linked with proto := { linked.proto with windows := vmod linked.proto.windows 6 fun ws => vmod ws 15 fun _ =>
      ⟨1, true, true, false, 12, 0, 0x8000000001000⟩ } }
theorem wit_TheGateFences : AtGate gated 6 { ask 0 8 with addr := 0xFF8 } ∧ RecordsStay gated 0 ∧
    Lowest gated 6 0xFF8 15 ∧ field 0xFF8 52 4 = 0 ∧ (gated.window 6 15).type = 1 ∧ (gated.window 6 15).wr = true ∧
    gated.locate (((gated.window 6 15).target.toNat + (0xFF8 - (gated.window 6 15).base.toNat)) % 2 ^ 56) =
      .lagoon 0x1FF8 ∧ CleanSpan Env.quiet gated 0x1FF8 8 ∧ InBlock 0x8000000001FF8 8 :=
  ⟨⟨by decide, by decide, by decide, by decide, by decide, by decide, by decide⟩, .inl (by decide),
    ⟨by decide, by decide, by decide⟩, by decide, by decide, by decide, by decide,
    fun _ _ _ => ⟨rfl, rfl, nofun, nofun⟩, by unfold InBlock; decide⟩
theorem wit_TheGateFences_waits : ∀ op ∈ [1, 2, 3, 5],
    AtGate (got gated 6 (asked op 0 { ask 0 8 with addr := 0xFF8 })) 6 { ask 0 8 with addr := 0xFF8 } ∧
    Waits (got gated 6 (asked op 0 { ask 0 8 with addr := 0xFF8 })) 6 op 0 { ask 0 8 with addr := 0xFF8 } := by
  intro op h
  simp only [List.mem_cons, List.not_mem_nil, or_false] at h
  rcases h with rfl | rfl | rfl | rfl <;>
    exact ⟨⟨by decide, by decide, by decide, by decide, by decide, by decide, by decide⟩, _, rfl, by decide⟩
theorem wit_TheGateFences_outside : AtGate gated 6 { ask 0 8 with addr := 0x1000 } ∧
    ∀ k : Fin 16, (gated.window 6 k.1).hit 0x1000 = false ∨ (gated.window 6 k.1).type = 0 ∨ (gated.window 6 k.1).type = 2 :=
  ⟨⟨by decide, by decide, by decide, by decide, by decide, by decide, by decide⟩, by decide⟩
theorem wit_TheGateFences_forbidden : ∃ s : State, AtGate s 6 { ask 0 8 with addr := 0xFF8 } ∧ Lowest s 6 0xFF8 15 ∧
    (s.window 6 15).rd = false ∧ (s.window 6 15).wr = false :=
  ⟨{ gated with proto := { gated.proto with windows := vmod gated.proto.windows 6 fun ws => vmod ws 15 fun x =>
      { x with rd := false, wr := false } } },
    ⟨by decide, by decide, by decide, by decide, by decide, by decide, by decide⟩, ⟨by decide, by decide, by decide⟩,
    by decide, by decide⟩
theorem wit_TheGateFences_records : ∃ s : State, (s.regions.get 0).flt.en = true ∧ RecordsStay s 0 :=
  ⟨up.onRegion 0 fun x => { x with flt := { x.flt with en := true, base := 0x8000000000000 } }, by decide,
    .inr ⟨by decide, fun n h => ⟨64 * n, by
      have h1 : n < 16 := h
      exact (by decide : ∀ n, n < 16 → up.locate (0x8000000000000 + 64 * n) = .lagoon (64 * n)) n h1⟩⟩⟩

/-- Write 9 of an initiator on peer port 2, outstanding beyond port 3, and a read of its own under tag 9. -/
def owing : State :=
  { peered with proto := { peered.proto with
      writes := [⟨9, false, ⟨2, 2, 0, 0, 64, [], 0, 0, 0, 0, .serve ⟨2, 1, 5, 0, false⟩ 0 0⟩⟩],
      reads := [⟨9, false, ⟨2, 1, 0, 0, 64, [], 0, 0, 0, 0, .own⟩⟩] } }
theorem wit_OwnRequestsHoldFreeNumbers : ∃ s : State, (1 : Port).1 = (1 : Fin 2).1 ∧ (s.port 1).state = 2 ∧ (192 : Nat) % 64 = 0 ∧
    192 % 256 + 64 ≤ 256 ∧ s.mayPost ⟨1, 1, 0, 192, 64, [], 0, 0, 0, 0, .own⟩ = true ∧ s.proto.reads.length < 16384 ∧
    (32 : Nat) % 64 ≠ 0 :=
  ⟨up.onPort 1 fun q => { q with state := 2, partner := List.replicate 48 1 }, by decide⟩
theorem wit_OwnRequestsHoldFreeNumbers_answer : ∀ op ∈ [0x21, 0x22], ∃ m y,
    RspWaits (got owing 2 (msg [rspSlot op 0 9 .ok 7])) 2 op 9 .ok m ∧ y ∈ owing.proto.writes ∧ y.x.port = 2 ∧
    (∀ z ∈ owing.proto.writes, z.id = y.id → z = y) ∧ y.x.use_ = .serve ⟨2, 1, 5, 0, false⟩ 0 0 := by
  intro op h
  simp only [List.mem_cons, List.not_mem_nil, or_false] at h
  rcases h with rfl | rfl <;> exact ⟨_, _, ⟨rfl, by decide⟩, List.mem_singleton.mpr rfl, by decide, by decide, rfl⟩
theorem wit_OwnRequestsHoldFreeNumbers_timeout : (∃ y ∈ owing.proto.reads, EndsHere owing y.x) ∧
    (∃ y ∈ owing.proto.writes, EndsHere owing y.x) ∧ ∀ y ∈ owing.proto.writes, y.id = 8 → y.x.port ≠ 2 :=
  ⟨⟨_, List.mem_singleton.mpr rfl, nofun⟩, ⟨_, List.mem_singleton.mpr rfl, nofun⟩, by decide⟩

/-- Table context 3 of region 7 waits for a read under tag 9 on port 2. -/
def fetching : State :=
  { owing with proto := { owing.proto with
      reads := [⟨9, false, ⟨2, 1, 0, 0, 64, [], 0, 0, 0, 0, .ferry 7 4 0 0 64 0⟩⟩] } }.onFerry 7 fun y =>
    { y with loaded := [LoadedCtx.mk' 4 (some 3) none none none 0 (FerryCtx.ofNat 0)] }
theorem wit_ErrorResponsesEndContexts : ∃ y c m,
    RspWaits (got fetching 2 (msg [rspSlot 0x20 0 9 .error 0])) 2 0x20 9 .error m ∧
    fetching.proto.reads.find? (fun z => z.id == 9 && z.x.port == 2) = some y ∧
    y.x.use_ = .ferry 7 4 0 0 64 0 ∧ fetching.loaded 7 4 = some c ∧ c.number = some 3 ∧
    fetching.recordOf c = 0 ∧ RecordsStay fetching 7 :=
  ⟨_, _, _, ⟨rfl, by decide⟩, rfl, rfl, rfl, rfl, by decide, .inl (by decide)⟩
theorem wit_ErrorResponsesEndContexts_stale : ∃ m, RspWaits (got fetching 2 (msg [rspSlot 0x20 0 8 .down 0])) 2 0x20 8 .down m ∧
    ∀ y ∈ fetching.proto.reads, y.id = 8 → y.x.port ≠ 2 := ⟨_, ⟨rfl, by decide⟩, by decide⟩

/-- Stream 4 of chiplet 1 on port 2: OSEQ 7 is its turn. -/
def streaming (q : Req) (busy : Bool) (waiting : List StreamReq) : State :=
  { asking 2 0 q with proto := { peered.proto with streams := [⟨2, 1, 4, 7, busy, waiting⟩] } }
/-- A request of that stream. -/
def inStream (n : Nat) : Req := { ask 64 8 with ostr := 4, oseq := BitVec.ofNat 12 n }
theorem wit_StreamsKeepTheirOrder : isPeer 2 = true ∧ ((streaming (inStream 8) false []).port 2).state = 2 ∧
    (streaming (inStream 8) false []).proto.fence.getLsbD 2 = false ∧ ((inStream 8).oseq - 7).toNat < 64 ∧
    (inStream 8).oseq ≠ 7 ∧ addrChip (inStream 8).addr.toNat = (streaming (inStream 8) false []).pk.id.toNat ∧
    Waits (streaming (inStream 8) false []) 2 2 0 (inStream 8) ∧
    DataOf (streaming (inStream 8) false []) 2 (inStream 8) (List.replicate 256 9) :=
  ⟨by decide, by decide, by decide, by decide, by decide, by decide, ⟨_, rfl, by decide⟩, by unfold DataOf; decide⟩
theorem wit_StreamsKeepTheirOrder_turn : InBlock (inStream 7).addr.toNat 8 ∧
    Waits (streaming (inStream 7) false [⟨2, 0, inStream 7, [1], 0⟩]) 2 2 0 (inStream 7) ∧
    (streaming (inStream 7) false []).locate (inStream 7).addr.toNat = .lagoon 64 ∧
    CleanSpan Env.quiet (streaming (inStream 7) false []) 64 8 ∧ (inStream 7).oseq = 7 :=
  ⟨by unfold InBlock; decide, ⟨_, rfl, by decide⟩, by decide, fun _ _ _ => ⟨rfl, rfl, nofun, nofun⟩, by decide⟩

/-- A payload flit of chain records for cluster 63 of region 7 that waits at port 2. -/
def chainFlit (proto : W64) (payload : List Byte) (due : List Nat) : State :=
  (peered.onPort 2 fun q => { q with payWait := [⟨proto, payload⟩] }).onCluster 63 fun y =>
    { y with issued := due, chainIn := { y.chainIn with due := due } }
theorem wit_PayloadFlitsReachTheirPlace : (⟨0, []⟩ : TxFlit) ∉ (peered.port 2).payWait ∧ protoClass 0 ≠ 2 ∧
    ∃ s : State, s.power.forced = true := ⟨by decide, by decide, { up with power := { up.power with forced := true } }, by decide⟩
theorem wit_PayloadFlitsReachTheirPlace_chain : ∃ s : State, (⟨0xA00000FC00000000, []⟩ : TxFlit) ∈ (s.port 2).payWait ∧
    protoClass 0xA00000FC00000000 = 2 ∧ s.power.forced = false ∧
    s.proto.fence.getLsbD 2 = false ∧ s.hasFeature 1 = true ∧ testBit (0xA00000FC00000000#64).toNat 23 = false ∧
    (63 : Fin 64).1 = 8 * field (0xA00000FC00000000#64).toNat 37 3 + field (0xA00000FC00000000#64).toNat 34 3 ∧
    (s.clusters.get 63).chainIn.due = [7] ∧ (s.clusters.get 63).doneWith 7 = false :=
  ⟨chainFlit 0xA00000FC00000000 [] [7], by decide⟩
theorem wit_PayloadFlitsReachTheirPlace_trailer : ∃ s : State, (⟨0xA00000FC00800000, []⟩ : TxFlit) ∈ (s.port 2).payWait ∧
    testBit (0xA00000FC00800000#64).toNat 23 = true ∧ testBit (sub ([] : List Byte) 0 1) 2 = false ∧
    (s.clusters.get 63).doneWith (sub ([] : List Byte) 8 8) = false :=
  ⟨chainFlit 0xA00000FC00800000 [] [0], by decide⟩
theorem wit_PayloadFlitsReachTheirPlace_fenced : ∃ s : State, (⟨0xA00000FC00000000, []⟩ : TxFlit) ∈ (s.port 2).payWait ∧
    s.proto.fence.getLsbD 2 = true ∧ RecordsStay s 0 :=
  ⟨{ chainFlit 0xA00000FC00000000 [] [] with proto := up.proto }, by decide, by decide, .inl (by decide)⟩

theorem wit_DoorbellsAndRingRegisters : ∃ s : State, (s.ring 7 7).en = true ∧
    (16#32 - (s.ring 7 7).tail).toNat + ((s.ring 7 7).tail - (s.ring 7 7).done).toNat ≤ ringSize (s.ring 7 7).log2 :=
  ⟨up.onRing 7 7 fun q => { q with en := true }, by decide⟩
theorem wit_DoorbellsAndRingRegisters_full : ∃ s : State, (s.ring 7 7).en = true ∧
    ringSize (s.ring 7 7).log2 < (17#32 - (s.ring 7 7).tail).toNat + ((s.ring 7 7).tail - (s.ring 7 7).done).toNat :=
  ⟨up.onRing 7 7 fun q => { q with en := true }, by decide⟩
theorem wit_DoorbellsAndRingRegisters_off : (up.ring 0 0).en = false ∧ (up.regions.get 0).flt.en = false ∧
    up.pk.running = true ∧ State.reset.pk.running = false ∧ up.clocks = true ∧ (0x80000004#32).getLsbD 31 = true := by decide
theorem wit_DoorbellsAndRingRegisters_fault : ∃ s : State, (s.regions.get 7).flt.en = true :=
  ⟨up.onRegion 7 fun x => { x with flt := { x.flt with en := true } }, by decide⟩

/-- The fault ring of region 7 at lagoon offset 0x3FFFFC00 with its last record to write. -/
def faultRing : State :=
  up.onRegion 7 fun x => { x with flt := { x.flt with en := true, base := 0x800003FFFFC00, wr := 15 } }
theorem wit_FaultRecordsFillTheirRing : (faultRing.ring 7 0).en = false ∧
    faultRing.locate ((faultRing.regions.get 7).flt.base.toNat + 64 * ((faultRing.regions.get 7).flt.wr.toNat %
      ringSize (faultRing.regions.get 7).flt.log2)) = .lagoon 0x3FFFFFC0 ∧ 0x3FFFFFC0 % 64 = 0 ∧
    (faultRing.regions.get 7).flt.en = true ∧
    ((faultRing.regions.get 7).flt.wr - (faultRing.regions.get 7).flt.rd).toNat ≠
      ringSize (faultRing.regions.get 7).flt.log2 ∧ faultRing.poisoned (0x3FFFFFC0 / 64) = false ∧
    (faultRing.regions.get 7).flt.notifyEn = false := by decide
theorem wit_FaultRecordsFillTheirRing_notify : ∃ s : State, (s.regions.get 7).flt.notifyEn = true ∧
    testBit (s.regions.get 7).flt.notifyAddr.toNat 55 = false ∧
    addrChip (s.regions.get 7).flt.notifyAddr.toNat = s.pk.id.toNat :=
  ⟨faultRing.onRegion 7 fun x => { x with flt := { x.flt with notifyEn := true } }, by decide⟩
theorem wit_FaultRecordsFillTheirRing_full : ∃ s : State, (s.ring 7 0).en = false ∧
    s.locate ((s.regions.get 7).flt.base.toNat + 64 * ((s.regions.get 7).flt.wr.toNat %
      ringSize (s.regions.get 7).flt.log2)) = .lagoon 0x3FFFFC00 ∧
    ((s.regions.get 7).flt.wr - (s.regions.get 7).flt.rd).toNat = ringSize (s.regions.get 7).flt.log2 :=
  ⟨faultRing.onRegion 7 fun x => { x with flt := { x.flt with wr := 16 } }, by decide⟩

/-- Region 7 with one record waiting on ring 3, a NOP of zeros at lagoon offset 0. -/
def ringing : State := up.onRing 7 3 fun q => { q with en := true, tail := 1, base := 0x8000000000000 }
theorem wit_RecordsIssueByPriority : ringing.mayIssue 7 = true ∧ (ringing.regions.get 7).nextRing = some 3 ∧
    ringing.locateN (ringAddr (ringing.ring 7 3) (ringing.ring 7 3).head) 64 = .lagoon 0 ∧ CleanSpan Env.quiet ringing 0 64 ∧
    recBad (memReadN ringing.mem.lagoon 0 64) = false ∧ ringing.noChart (memReadN ringing.mem.lagoon 0 64) = false :=
  ⟨by decide, by decide, by decide, fun _ _ _ => ⟨rfl, rfl, nofun, nofun⟩, by decide, by decide⟩
theorem wit_RecordsIssueByPriority_turn : ∃ x : RegionSt, x.nextRing = some 2 ∧ (x.rings.get 5).ready = true ∧
    x.turn.get (fin 3 (x.rings.get 2).prio.toNat) = 1 ∧ (x.rings.get 5).prio = (x.rings.get 2).prio :=
  ⟨{ (ringing.regions.get 7) with
      turn := Vector.replicate 4 1,
      rings := vmod (vmod (ringing.regions.get 0).rings 2 fun q => { q with en := true, tail := 1 }) 5 fun q =>
        { q with en := true, tail := 1 } }, by decide⟩
theorem wit_RecordsIssueByPriority_bad : ∃ s : State, s.mayIssue 7 = true ∧ (s.regions.get 7).nextRing = some 3 ∧
    s.locateN (ringAddr (s.ring 7 3) (s.ring 7 3).head) 64 = .lagoon 0 ∧ recBad (memReadN s.mem.lagoon 0 64) = true ∧
    s.locateN (ringAddr (s.ring 7 3) (s.ring 7 3).head + 56) 8 = .lagoon 56 :=
  ⟨{ ringing with mem := { ringing.mem with lagoon := [⟨0, 9⟩] } }, by decide⟩
theorem wit_RecordsIssueByPriority_none : up.mayIssue 7 = true ∧ (up.regions.get 7).nextRing = none := by decide

/-- Region 7's controller with a record of ring 3 whose first byte is `op`. -/
def issuing (op : Byte) (rest : List Byte) : State :=
  ringing.onRegion 7 fun x => { x with current := some ⟨⟨3, 0, 0, 0x8000000000000⟩, op :: rest⟩ }
/-- That record. -/
def issued (op : Byte) (rest : List Byte) : Current := ⟨⟨3, 0, 0, 0x8000000000000⟩, op :: rest⟩
theorem wit_RecordsRetireInOrder : ∀ op ∈ [0, 5, 6, 7, 8], Issued (issuing op []) 7 op.toNat (issued op []) := by
  intro op h
  simp only [List.mem_cons, List.not_mem_nil, or_false] at h
  rcases h with rfl | rfl | rfl | rfl | rfl <;> exact ⟨by decide, by decide, by decide⟩
theorem wit_RecordsRetireInOrder_place : (issuing 0 []).locateN (0x8000000000000 + 56) 8 = .lagoon 56 ∧
    CleanSpan Env.quiet (issuing 0 []) 56 8 := ⟨by decide, fun _ _ _ => ⟨rfl, rfl, nofun, nofun⟩⟩

/-- Ring 3 of region 7 held by a record of operation `op`, alone on its ring; chiplet 1 lies behind port 2. -/
def holding (op : Byte) (rest : List Byte) : State :=
  ({ ringing with pk := { ringing.pk with route := 0x20 } }.onPort 2 fun q => { q with state := 2 }).onRing 7 3 fun q =>
    { q with hold := some (⟨3, 0, 0, 0x8000000000000⟩, op :: rest), opened := [⟨0, 0, false⟩] }
theorem wit_HeldRecordsEndTheirWait : (holding 6 []).holdOver 7 3 ⟨3, 0, 0, 0x8000000000000⟩ [6] = true ∧
    ((holding 6 []).ring 7 3).hold = some (⟨3, 0, 0, 0x8000000000000⟩, [6]) ∧ (holding 6 []).regionActs 7 = true ∧
    recOp [6] = 6 := by decide
theorem wit_HeldRecordsEndTheirWait_wait : ∃ s : State, (s.ring 7 3).hold = some (⟨3, 0, 0, 0x8000000000000⟩, [6]) ∧
    s.holdOver 7 3 ⟨3, 0, 0, 0x8000000000000⟩ [6] = false :=
  ⟨(holding 6 []).onRing 7 3 fun q => { q with opened := [⟨1, 0, false⟩] }, by decide⟩
/-- ADDR at lagoon offset 64 of chiplet 0, VALUE 5. -/
def flagOperands : List Byte :=
  List.replicate 15 0 ++ [64, 0, 0, 0, 0, 0, 8, 0, 5, 0, 0, 0, 0, 0, 0, 0]
theorem wit_HeldRecordsEndTheirWait_flag :
    (holding 7 flagOperands).holdOver 7 3 ⟨3, 0, 0, 0x8000000000000⟩ (7 :: flagOperands) = true ∧
    recOp (7 :: flagOperands) = 7 ∧
    (holding 7 flagOperands).locateN (recField (7 :: flagOperands) 128 56) 8 = .lagoon 64 ∧
    CleanSpan Env.quiet (holding 7 flagOperands) 64 8 :=
  ⟨by decide, by decide, by decide, fun _ _ _ => ⟨rfl, rfl, nofun, nofun⟩⟩
/-- ADDR on chiplet 1. -/
def signalOperands : List Byte := List.replicate 15 0 ++ [64, 0, 0, 0, 0, 0, 0x18]
theorem wit_HeldRecordsEndTheirWait_signal : ∃ y, recOp (8 :: signalOperands) = 8 ∧
    (holding 8 signalOperands).holdOver 7 3 ⟨3, 0, 0, 0x8000000000000⟩ (8 :: signalOperands) = true ∧
    (holding 8 signalOperands).locate (recField (8 :: signalOperands) 128 56) = .away ∧
    (holding 8 signalOperands).leave (recField (8 :: signalOperands) 128 56) .write = .way y :=
  ⟨⟨2, 0x18000000000040, none⟩, by decide⟩

/-- An image with one chart, all of zeros: one position, cluster 0 of region 0 of chiplet 0. -/
def oneChart : Mem := [⟨6, 1⟩, ⟨13, 1⟩, ⟨256, 7⟩, ⟨261, 2⟩, ⟨264, 8⟩, ⟨512, 64⟩, ⟨516, 64⟩]
/-- Operands that put the argument block at lagoon offset 1024 and the status record at `stat`. -/
def bindOperands (stat : List Byte) : List Byte := List.replicate 16 0 ++ [4, 0, 0, 0, 0, 8] ++ List.replicate 9 0 ++ stat
/-- The chart of `oneChart`. -/
def chart0 : Chart := Chart.ofBytes (List.replicate 64 0)
/-- A BIND of that chart in the controller. -/
def binding : State := { issuing 1 (bindOperands []) with site := { up.site with image := oneChart } }
theorem wit_BindAndRelease : Issued binding 7 1 (issued 1 (bindOperands [])) ∧ recInst (1 :: bindOperands []) = 0 ∧
    recField (1 :: bindOperands []) 16 1 = 0 ∧
    imgChart binding.site.image (recField (1 :: bindOperands []) 64 12) = some chart0 ∧ (binding.inst 7 0).st = .idle ∧
    (∀ p ∈ chart0.positions, p.chiplet = binding.pk.id.toNat ∧
      p.cluster < (binding.site.regions.get (fin 7 p.region)).clusters.toNat) ∧
    placement binding chart0 [] = some [0] ∧ binding.conflicts (7, 0) chart0 [0] = [] ∧ Env.quiet.away = none ∧
    binding.locateN (recField (1 :: bindOperands []) 128 56) 576 = .lagoon 1024 ∧ CleanSpan Env.quiet binding 1024 576 ∧
    recField (1 :: bindOperands []) 256 56 = 0 :=
  ⟨⟨by decide, by decide, by decide⟩, by decide, by decide, by decide +kernel, by decide, by decide +kernel,
    by decide +kernel, by decide +kernel, by decide, by decide, fun _ _ _ => ⟨rfl, rfl, nofun, nofun⟩, by decide⟩
theorem wit_BindAndRelease_status : recField (1 :: bindOperands [0, 8, 0, 0, 0, 0, 8]) 256 56 ≠ 0 ∧
    (instRecord { Inst.reset with st := .bound }).length = 64 ∧
    binding.locateN (recField (1 :: bindOperands [0, 8, 0, 0, 0, 0, 8]) 256 56) 64 = .lagoon 2048 ∧
    CleanSpan Env.quiet binding 2048 64 := ⟨by decide, by decide, by decide, fun _ _ _ => ⟨rfl, rfl, nofun, nofun⟩⟩
theorem wit_BindAndRelease_conflict : ∃ s : State, (s.inst 7 0).st = .idle ∧ s.conflicts (7, 0) chart0 [0] ≠ [] ∧
    recField (1 :: bindOperands []) 17 1 = 0 :=
  ⟨(binding.onInst 7 1 fun i => { i with st := .bound, chart := some chart0 }).onCluster 0 fun y =>
    { y with inst := some (7, 1) }, by decide +kernel⟩
theorem wit_BindAndRelease_taken : ∃ s : State, Issued s 7 1 (issued 1 (bindOperands [])) ∧ (s.inst 7 0).st ≠ .idle :=
  ⟨binding.onInst 7 0 fun i => { i with st := .running }, ⟨by decide, by decide, by decide⟩, by decide⟩
theorem wit_BindAndRelease_release : (∃ s : State, Issued s 7 1 (issued 1 [0, 1]) ∧
    recField [1, 0, 1] 16 1 = 1 ∧ recInst [1, 0, 1] = 0 ∧ (s.inst 7 0).st = .stopped) ∧
    ((issuing 1 [0, 1]).inst 7 0).st = .idle :=
  ⟨⟨(issuing 1 [0, 1]).onInst 7 0 fun i => { i with st := .stopped }, ⟨by decide, by decide, by decide⟩, by decide,
    by decide, by decide⟩, by decide⟩
/-- What the owner of slot 3 of chiplet 1 tells of chart 0. -/
def farOf : Far := ⟨1, 3, 0, [], 0, [0], [], [(1023, 4, 9)], []⟩
theorem wit_BindAndRelease_far : 35 = binding.farSlot farOf ∧ ownSlot 35 = false ∧
    imgChart binding.site.image farOf.chartNo.toNat = some chart0 ∧ (binding.inst 7 35).st = .idle ∧
    binding.conflicts (7, 35) chart0 farOf.groups = [] :=
  ⟨by decide, by decide, by decide +kernel, by decide, by decide +kernel⟩
theorem wit_BindAndRelease_farTaken : ∃ s : State, imgChart s.site.image farOf.chartNo.toNat = some chart0 ∧
    (s.inst 7 35).st = .idle ∧ s.conflicts (7, 35) chart0 farOf.groups ≠ [] :=
  ⟨(binding.onInst 7 1 fun i => { i with st := .bound, chart := some chart0 }).onCluster 0 fun y =>
    { y with inst := some (7, 1) }, by decide +kernel⟩

/-- Instance `k` of region 7 bound to `chart0`, with a START or another record in the controller. -/
def boundAt (k : SlotNo) (op : Byte) (st : InstState) : State :=
  (issuing op []).onInst 7 k fun i => { i with st := st, chart := some chart0, groups := [Group.fresh 0 [3]] }
/-- Instance 0 so. -/
def bound (op : Byte) (st : InstState) : State := boundAt 0 op st
theorem wit_RunsStartStopAndResume : recInst [2] = 0 ∧ ((bound 2 .bound).inst 7 0).st = .bound ∧
    ((bound 2 .bound).inst 7 0).chart = some chart0 ∧ ((bound 2 .bound).inst 7 0).displaced = false ∧
    ((bound 2 .bound).inst 7 0).reason ≠ 6 ∧ (∀ b ∈ chart0.bounds, b.src ≠ 2) ∧
    tileCount chart0 (plainBounds ((bound 2 .bound).inst 7 0).args chart0.bounds 0) < 2 ^ 63 ∧
    slotFault chart0 (plainBounds ((bound 2 .bound).inst 7 0).args chart0.bounds 0) = none := by decide +kernel
theorem wit_RunsStartStopAndResume_issued : Issued (bound 2 .bound) 7 2 (issued 2 []) ∧
    Issued (bound 3 .running) 7 3 (issued 3 []) ∧ Issued (bound 4 .faulted) 7 4 (issued 4 []) ∧
    ((bound 3 .running).inst 7 0).stopRec = none :=
  ⟨⟨by decide, by decide, by decide⟩, ⟨by decide, by decide, by decide⟩, ⟨by decide, by decide, by decide⟩, by decide⟩
/-- Blocks of one element. -/
def units : Loop := { chart0.l1 with tm := 1, tn := 1, tb1 := 1, tb2 := 1, order := [0, 1, 2, 3, 4] }
/-- Bounds of 2^21 and extents of 1 in four dimensions. -/
def wide : Chart :=
  { chart0 with
    l1 := units, l2 := units, l3 := units,
    bounds := List.replicate 8 { (chart0.bounds.headD (BoundEntry.ofNat 0)) with src := 0, value := 2 ^ 21 } }
theorem wit_RunsStartStopAndResume_tiles : (∀ b ∈ wide.bounds, b.src ≠ 2) ∧
    2 ^ 63 ≤ tileCount wide (plainBounds [] wide.bounds 0) := by decide +kernel
theorem wit_RunsStartStopAndResume_displaced : ∃ s : State, (s.inst 7 0).st = .stopped ∧ (s.inst 7 0).displaced = true ∧
    s.conflicts (7, 0) chart0 ((s.inst 7 0).groups.map (·.g)) ≠ [] :=
  ⟨(((bound 4 .stopped).onInst 7 0 fun i => { i with displaced := true }).onInst 7 1 fun i =>
    { i with st := .bound, chart := some chart0 }).onCluster 0 fun y => { y with inst := some (7, 1) }, by decide +kernel⟩
theorem wit_RunsStartStopAndResume_pending : ∃ s : State, (s.inst 7 0).st = .draining ∧ (s.inst 7 0).stopPending = true ∧
    recField [4, 0, 1] 16 1 = 1 ∧ (s.inst 7 0).ranges = [(0, 9)] :=
  ⟨(bound 3 .draining).onInst 7 0 fun i => { i with stopPending := true, ranges := [(0, 9)] }, by decide⟩
theorem wit_RunsStartStopAndResume_counters : ∃ (c : Chart) (x : CtrEntry), c.counters = [x] ∧ x.chiplet = up.pk.id.toNat :=
  ⟨{ chart0 with counters := [CtrEntry.ofNat 0] }, CtrEntry.ofNat 0, rfl, by decide⟩
theorem wit_RunsStartStopAndResume_far : 35 = (boundAt 35 0 .bound).farSlot farOf ∧ ownSlot 35 = false ∧
    ((boundAt 35 0 .bound).inst 7 35).chart = some chart0 ∧ ((boundAt 35 0 .bound).inst 7 35).displaced = false ∧
    ((boundAt 35 0 .bound).inst 7 35).st = .bound ∧ farOf.counters = [(1023, 4, 9)] ∧
    ((boundAt 35 0 .running).inst 7 35).st = .running ∧ ((boundAt 35 0 .stopped).inst 7 35).st = .stopped := by decide

theorem wit_ClusterSlotsStartEight : ∃ s : State, s.clocks = true ∧ s.power.forced = false ∧
    (∀ k ∈ s.power.waiting, k < 64) ∧ s.power.waiting.length = 9 :=
  ⟨{ up with power := { up.power with waiting := [63, 0, 1, 2, 3, 4, 5, 6, 7] } }, by decide⟩
theorem wit_ClusterSlotsStartEight_forced : ∃ s : State, s.clocks = true ∧ s.power.forced = true :=
  ⟨{ up with power := { up.power with forced := true } }, by decide⟩

theorem wit_IdleDomainsStop : up.clusterIdle (clIdx 7 7) = true ∧ up.power.haltedClusters.getLsbD 63 = false ∧
    up.clocks = true ∧ up.power.haltedRegions.getLsbD 7 = false := by decide
theorem wit_IdleDomainsStop_region : ∃ s : State, s.power.runs = true ∧ s.regionIdle 7 = true :=
  ⟨{ up with power := { up.power with clustersOn := 0 } }, by decide⟩
theorem wit_IdleDomainsStop_halted : ∃ s : State, s.power.haltedClusters.getLsbD (clIdx 7 7).1 = true :=
  ⟨{ up with power := { up.power with haltedClusters := BitVec.allOnes 64 } }, by decide⟩

theorem wit_EbbRequestAnswered : up.pk.lead = false := by decide
theorem wit_EbbRequestAnswered_notRunning : (starting 3).pk.lead = true ∧ (starting 3).pk.running = false ∧
    (starting 3).power.st ≠ .ebb ∧ (starting 3).power.st ≠ .off := by decide
theorem wit_EbbRequestAnswered_busy : ∃ s : State, s.pk.lead = true ∧ s.pk.running = true ∧ s.power.st ≠ .ebb ∧
    s.power.st ≠ .off ∧ s.regionBusy 7 = true ∧ ∀ q : Region, q < 7 → s.regionBusy q = false :=
  ⟨lead.onRegion 7 fun x => { x with fy := { x.fy with queue := [7] } }, by decide +kernel⟩
theorem wit_EbbRequestAnswered_accepted : lead.pk.lead = true ∧ lead.pk.running = true ∧ lead.power.st = .flood ∧
    (∀ r : Region, lead.regionBusy r = false) ∧ lead.portsBusy = false ∧
    lead.life.busy = false ∧ (∀ p : Port, (lead.port p).state ≠ 2) ∧ lead.power.haltedRegions = 0 ∧
    lead.power.haltedClusters = 0 ∧ Env.quiet.peers = [] := by decide +kernel
theorem wit_EbbRequestAnswered_request : ∃ s : State, s.pk.lead = true ∧ s.pk.running = true ∧
    (∀ r : Region, s.regionBusy r = false) ∧ s.portsBusy = true :=
  ⟨got lead 2 (capMsg 0), by decide +kernel⟩
theorem wit_EbbRequestAnswered_noLp : ∃ s : State, s.pk.lead = true ∧ s.pk.running = true ∧ s.power.st = .flood ∧
    (∀ r : Region, s.regionBusy r = false) ∧ s.portsBusy = false ∧ s.life.busy = false ∧ (s.port 6).state = 2 ∧
    (s.proto.pfeat.get 6).getLsbD (lpBit 6) = false ∧ ∀ q : Port, q < 6 → (s.port q).state ≠ 2 :=
  ⟨lead.onPort 6 fun q => { q with state := 2 }, by decide +kernel⟩

/-- A chiplet on its way into Ebb, after step `n`. -/
def ebbing (s : State) (n : Nat) : State := { s with power := { s.power with st := .enterEbb, ebbStep := n } }
theorem wit_EbbEntryAndWake : ∃ s : State, s.power.st = .enterEbb ∧ s.power.ebbStep = 4 ∧
    s.portsDown s.lowerPorts = true ∧ s.pk.lead = true ∧ s.power.wakePending ≠ 0 :=
  ⟨{ ebbing lead 4 with power := { (ebbing lead 4).power with wakePending := 2 } }, by decide⟩
theorem wit_EbbEntryAndWake_quiet : (ebbing lead 4).power.st = .enterEbb ∧ (ebbing lead 4).power.ebbStep = 4 ∧
    (ebbing lead 4).portsDown (ebbing lead 4).lowerPorts = true ∧ (ebbing lead 4).pk.lead = true ∧
    (ebbing lead 4).power.wakePending = 0 ∧ (ebbing lead 4).power.wakeDue = false := by decide
theorem wit_EbbEntryAndWake_member : (ebbing up 4).portsDown (ebbing up 4).lowerPorts = true ∧
    (ebbing up 4).pk.lead = false ∧ (ebbing up 2).power.ebbStep = 2 := by decide
theorem wit_EbbEntryAndWake_told : up.power.runs = true ∧ up.pk.lead = false ∧ up.pk.running = true := by decide
/-- A chiplet that wakes, after step `n`. -/
def wakingAt (n : Nat) : State := { up with power := { up.power with st := .waking, wakeStep := n } }
theorem wit_EbbEntryAndWake_wake : (wakingAt 1).power.st = .waking ∧ (wakingAt 1).power.wakeStep = 1 ∧
    (wakingAt 1).vault.zeroDue = false ∧ (wakingAt 2).portsBack = true ∧ (wakingAt 5).power.wakeStep = 5 ∧
    (wakingAt 7).power.wakeStep = 7 := by decide
theorem wit_EbbEntryAndWake_ebb : ∃ s : State, s.power.st = .ebb ∧ s.pk.lead = false ∧ s.vault.zeroDue = true :=
  ⟨{ up with power := { up.power with st := .ebb }, vault := { up.vault with zeroDue := true } }, by decide⟩

theorem wit_WakeEventsReachTheLead : ∃ s : State, s.pk.lead = true ∧ s.power.st = .ebb ∧ s.ao.timerEn = true ∧
    (80 : BundleNo) ∈ portBundles 6 ∧ (s.bundle 80).state = 4 ∧ isMemory 6 = false :=
  ⟨{ lead with power := { lead.power with st := .ebb }, ao := { lead.ao with timerEn := true } }.onBundle 80
    fun b => { b with state := 4 }, by decide⟩
theorem wit_WakeEventsReachTheLead_entry : (ebbing lead 3).pk.lead = true ∧ (ebbing lead 3).power.st = .enterEbb := by decide
theorem wit_WakeEventsReachTheLead_memory : up.pk.lead = false ∧ isMemory 0 = true := by decide

theorem wit_SamplesSetTheThrottleLevel : BaseReads (List.replicate 32 (some 764)) 764 ∧ up.power.st ≠ .off ∧
    up.pk.phase ≠ .inReset :=
  ⟨⟨fun i h => ⟨764, (by decide : ∀ i, i < 32 → (List.replicate 32 (some (764 : Int))).getD i none = some 764) i h,
    by decide, by decide⟩, ⟨0, by decide, by decide⟩,
    by decide⟩, by decide, by decide⟩
theorem wit_SamplesSetTheThrottleLevel_invalid : ∀ i, i < 32 → ([] : List (Option Int)).getD i none = none := by
  intro i _; rfl

theorem wit_AlarmsLock : ∃ s : State, s.power.st ≠ .off ∧ s.pk.step.toNat ≥ 16 ∧ s.sec.eraseMask.getLsbD 6 = true ∧
    s.sec.eraseMask.getLsbD 5 = true ∧ s.vault.driving = false ∧ (s.inst 7 31).st ≠ .idle :=
  ⟨{ up with sec := { up.sec with eraseMask := 0x60 } }.onInst 7 31 fun i => { i with st := .running }, by decide⟩
theorem wit_AlarmsLock_lockOnly : up.power.st ≠ .off ∧ (3 : Fin 8) ≠ 6 ∧ up.sec.eraseMask.getLsbD 3 = false ∧
    up.sec.eraseMask.getLsbD 6 = false := by decide
theorem wit_AlarmsLock_driving : ∃ s : State, s.power.st ≠ .off ∧ s.vault.driving = true :=
  ⟨{ up with vault := { up.vault with driving := true } }, by decide⟩
theorem wit_AlarmsLock_memory : (∀ x ∈ up.liveInsts, ownSlot x.2 = false) ∧ (starting 3).clocks = false := by
  decide +kernel

theorem wit_LockEndsWithZeros : ∃ s : State, s.vault.locking = true ∧ s.vault.zeroed = false ∧ s.clocks = true ∧
    s.vault.debug3 = true :=
  ⟨{ up with vault := { up.vault with locking := true, debug3 := true } }, by decide⟩
theorem wit_LockEndsWithZeros_plain : ∃ s : State, s.vault.locking = true ∧ s.vault.zeroed = false ∧
    s.clocks = true ∧ s.vault.debug3 = false :=
  ⟨{ up with vault := { up.vault with locking := true } }, by decide⟩
theorem wit_LockEndsWithZeros_release : ∃ s : State, s.vault.driving = true ∧ s.vault.zeroed = true :=
  ⟨{ up with vault := { up.vault with driving := true, zeroed := true } }, by decide⟩
theorem wit_LockEndsWithZeros_flash : lead.pk.strap = 1 ∧ lead.life.busy = false ∧ lead.vault.zeroed = false := by decide

theorem wit_TokensGrantLevels : up.prodomRuns = true ∧ up.sec.keysLive = false ∧
    up.tokenResult (memReadN up.sec.token 0 6052) ≠ 2 ∧ up.tokenSigned [] = false := by decide +kernel
/-- Bytes of a public key before its root: L, the LMS and LMOTS types, and I (R399). -/
def keyHead : List Byte := [0, 0, 0, 1, 0, 0, 0, 5, 0, 0, 0, 4] ++ List.replicate 16 0
/-- A token for a level that names the device 0, with a signature all zero but for its types. -/
def tokenMem (lv : Byte) : Mem :=
  [(0, 0x52), (1, 0x51), (2, 0x44), (3, 0x54), (4, lv), (5, 1), (8, 0x10), (9, 5), (347, 4), (1471, 5)]
def token1 (lv : Byte) : List Byte := memReadN (tokenMem lv) 0 6052
def sig1 (lv : Byte) : List Byte := ((token1 lv).drop 336).take 1296
/-- The root to which that signature leads: no hash is evaluated. -/
def root1 (lv : Byte) : List Byte :=
  let tid := List.replicate 16 0
  let key := otsKey ⟨8, 34, 0⟩ tid 0 (cutBytes ((sig1 lv).drop 4) 8 32) (cutBytes ((sig1 lv).drop 4) 40 1088) ((token1 lv).take 336)
  lmsRoot tid (((sig1 lv).drop 4).drop 1132) 5 0 32 (sha256 (tid ++ beBytes 4 32 ++ beBytes 2 0x8282 ++ key))
/-- The key with that root. -/
def key1 (lv : Byte) : List Byte := keyHead ++ (List.range 32).map fun i => (root1 lv).getD i 0
/-- An image of one section, OWNER, whose root key it is. -/
def image1 (lv : Byte) : Mem := [(6, 1), (12, 64), (64, 4), (68, 128), (72, 76)] ++ (List.range 60).map fun i => (144 + i, (key1 lv).getD i 0)
/-- A device not owned, with that image, with that token and its nonce. -/
def granting (lv : Byte) : State :=
  { up with
    sec := { up.sec with owned := false, owner := 0, keysLive := true, nonce := 0, devId := 0, level := 0, token := tokenMem lv },
    vault := { up.vault with nonceValid := true },
    site := { up.site with image := image1 lv } }

theorem shaRound_length (v : List W32) (kw : W32 × W32) : (shaRound v kw).length = v.length := by
  unfold shaRound; split <;> rfl
theorem shaRounds_length (xs : List (W32 × W32)) (v : List W32) : (xs.foldl shaRound v).length = v.length := by
  induction xs generalizing v with
  | nil => rfl
  | cons x xs ih => rw [List.foldl_cons, ih, shaRound_length]
theorem shaBlock_length (h : List W32) (b : List Byte) : (shaBlock h b).length = h.length := by
  simp only [shaBlock, List.length_zipWith, shaRounds_length, Nat.min_self]
theorem shaBlocks_length (bs : List (List Byte)) (h : List W32) : (bs.foldl shaBlock h).length = h.length := by
  induction bs generalizing h with
  | nil => rfl
  | cons b bs ih => rw [List.foldl_cons, ih, shaBlock_length]
theorem words_length (ws : List W32) : (ws.flatMap fun w => beBytes 4 w.toNat).length = 4 * ws.length := by
  induction ws with
  | nil => rfl
  | cons w ws ih => rw [List.flatMap_cons, List.length_append, ih]; simp [beBytes, natToBytes]; omega
theorem sha256_length (bs : List Byte) : (sha256 bs).length = 32 := by
  rw [sha256, words_length, shaBlocks_length]; rfl
theorem lmsRoot_length (tid path : List Byte) (h i n : Nat) (v : List Byte) (hv : v.length = 32) :
    (lmsRoot tid path h i n v).length = 32 := by
  induction h generalizing i n v with
  | zero => exact hv
  | succ h ih => exact ih _ _ _ (sha256_length _)
theorem getD_range (l : List Byte) (n : Nat) (h : l.length = n) : ((List.range n).map fun i => l.getD i 0) = l := by
  refine List.ext_getElem (by simp [h]) fun i h1 h2 => ?_
  simp [List.getElem?_eq_getElem h2]
theorem root1_length (lv : Byte) : (root1 lv).length = 32 := lmsRoot_length _ _ _ _ _ _ (sha256_length _)
theorem key1_length (lv : Byte) : (key1 lv).length = 60 := by simp [key1, keyHead]
theorem key1_eq (lv : Byte) : key1 lv = keyHead ++ root1 lv := by rw [key1, getD_range _ _ (root1_length lv)]
theorem memRead_beyond (p m : Mem) (x : Nat) (h : ∀ c ∈ p, c.1 ≠ x) : memRead (p ++ m) x = memRead m x := by
  induction p with
  | nil => rfl
  | cons c p ih =>
    rw [List.cons_append, memRead, if_neg fun e => h c (by simp) e.symm]
    exact ih fun d hd => h d (by simp [hd])
theorem memRead_run (a : Nat) (f : Nat → Byte) (n k j : Nat) (h : k ≤ j) (hj : j < k + n) :
    memRead ((List.range' k n).map fun i => (a + i, f i)) (a + j) = f j := by
  induction n generalizing k with
  | zero => omega
  | succ n ih =>
    rw [List.range'_succ, List.map_cons, memRead]
    by_cases e : j = k
    · simp [e]
    · rw [if_neg (by omega)]
      exact ih (k + 1) (by omega) (by omega)
theorem memReadN_map (m : Mem) (a n : Nat) : memReadN m a n = (List.range n).map fun i => memRead m (a + i) := by
  induction n generalizing a with
  | zero => rfl
  | succ n ih =>
    rw [memReadN, ih, List.range_succ_eq_map, List.map_cons, List.map_map]
    refine congrArg _ (List.map_congr_left fun i _ => ?_)
    simp only [Function.comp, Nat.succ_eq_add_one]; congr 1; omega
theorem memReadN_drop (m : Mem) (a n k : Nat) : (memReadN m a (n + k)).drop n = memReadN m (a + n) k := by
  induction n generalizing a with
  | zero => simp
  | succ n ih =>
    rw [show n + 1 + k = (n + k) + 1 by omega, memReadN, List.drop_succ_cons, ih]; congr 1; omega
theorem image1_sect (lv : Byte) (hl : lv = 1 ∨ lv = 3) : (imgSect (image1 lv) 4).map (fun x => (x.off, x.len)) = some (128, 76) := by
  rcases hl with rfl | rfl <;> decide +kernel
theorem granting_key (lv : Byte) (hl : lv = 1 ∨ lv = 3) : (granting lv).tokenKey = key1 lv := by
  have h : certRootPub (ownerSect (image1 lv)) = key1 lv := by
    have e := image1_sect lv hl
    have hs : ownerSect (image1 lv) = memReadN (image1 lv) 128 76 := by
      unfold ownerSect
      cases h : imgSect (image1 lv) 4 with
      | none => rw [h] at e; cases e
      | some x =>
        rw [h] at e
        simp only [Option.map_some, Option.some.injEq, Prod.mk.injEq] at e
        simp only [sectBytes, e.1, e.2]
    rw [certRootPub, hs, memReadN_drop (image1 lv) 128 16 60, memReadN_map, List.take_of_length_le (by simp)]
    refine Eq.trans ?_ (getD_range (key1 lv) 60 (key1_length lv))
    refine List.map_congr_left fun i hi => ?_
    rw [image1, memRead_beyond _ _ _ (by intro c hc; simp at hc; rcases hc with rfl | rfl | rfl | rfl | rfl <;> simp <;> omega),
      List.range_eq_range']
    exact memRead_run 144 (fun i => (key1 lv).getD i 0) 60 0 i (by omega) (by simpa using hi)
  have e : (granting lv).tokenKey = certRootPub (ownerSect (granting lv).site.image) := by
    have ho : (granting lv).sec.owned = false := rfl
    simp only [State.tokenKey, ho, Bool.not_false, if_true]
  rw [e, show (granting lv).site.image = image1 lv from rfl, h]
/-- The verification of R399 at one level, its parts named. -/
theorem lmsVerify_of {pub msg sig tid root : List Byte} {h q n : Nat} {t : OtsType}
    (h1 : lmsHeight (beNat (cutBytes pub 0 4)) = some h) (h2 : otsType (beNat (cutBytes pub 4 4)) = some t)
    (h3 : cutBytes pub 8 16 = tid) (h4 : beNat (cutBytes sig 0 4) = q) (h5 : cutBytes pub 24 32 = root)
    (h6 : pub.length = 56) (h7 : sig.length = n) (h8 : 12 + 32 + 32 * t.p + 32 * h = n)
    (h9 : cutBytes sig 4 4 = cutBytes pub 4 4) (h10 : cutBytes sig (4 + 4 + 32 + 32 * t.p) 4 = cutBytes pub 0 4)
    (h11 : q < 2 ^ h)
    (h12 : lmsRoot tid (sig.drop (4 + 4 + 32 + 32 * t.p + 4)) h 0 (2 ^ h + q)
      (sha256 (tid ++ beBytes 4 (2 ^ h + q) ++ beBytes 2 0x8282 ++
        otsKey t tid q (cutBytes sig 8 32) (cutBytes sig 40 (32 * t.p)) msg)) = root) :
    lmsVerify pub msg sig = true := by
  have e : lmsSigLen pub = some sig.length := by simp only [lmsSigLen, h1, h2, h7, h8]
  unfold lmsVerify
  rw [h1, h2]
  simp only [e, h3, h4, h5, h6, h9, h10, h11, h12, beq_self_eq_true, decide_true, Bool.and_self]
theorem token1_signed (lv : Byte) (hl : lv = 1 ∨ lv = 3) : (granting lv).tokenSigned (token1 lv) = true := by
  have hs : sub (token1 lv) 8 4 = 1296 := by rcases hl with rfl | rfl <;> decide +kernel
  have hk : hssVerify (keyHead ++ root1 lv) ((token1 lv).take 336) (sig1 lv) = true := by
    have hr := root1_length lv
    have hn : (sig1 lv).length = 1296 := by rcases hl with rfl | rfl <;> decide +kernel
    have h0 : beNat (cutBytes (sig1 lv) 0 4) = 0 := by rcases hl with rfl | rfl <;> decide +kernel
    have hm : lmsVerify ((keyHead ++ root1 lv).drop 4) ((token1 lv).take 336) ((sig1 lv).drop 4) = true := by
      have hd : (keyHead ++ root1 lv).drop 4 = keyHead.drop 4 ++ root1 lv := rfl
      have hc : ∀ off n, off + n ≤ 24 → cutBytes (keyHead.drop 4 ++ root1 lv) off n = cutBytes (keyHead.drop 4) off n := by
        intro off n h
        have : (keyHead.drop 4).length = 24 := rfl
        simp only [cutBytes]
        rw [List.drop_append_of_le_length (by omega), List.take_append_of_le_length (by rw [List.length_drop]; omega)]
      rw [hd]
      refine lmsVerify_of (h := 5) (q := 0) (n := 1292) (t := ⟨8, 34, 0⟩) (tid := List.replicate 16 0) (root := root1 lv)
        ?_ ?_ ?_ ?_ ?_ ?_ ?_ rfl ?_ ?_ (by decide) rfl
      · rw [hc _ _ (by decide)]; decide +kernel
      · rw [hc _ _ (by decide)]; decide +kernel
      · rw [hc _ _ (by decide)]; decide +kernel
      · rcases hl with rfl | rfl <;> decide +kernel
      · have : (keyHead.drop 4).length = 24 := rfl
        rw [cutBytes, List.drop_left' this, List.take_of_length_le (by omega)]
      · rw [List.length_append, hr]; rfl
      · rw [List.length_drop, hn]
      · rw [hc _ _ (by decide)]; rcases hl with rfl | rfl <;> decide +kernel
      · rw [hc _ _ (by decide)]; rcases hl with rfl | rfl <;> decide +kernel
    have hL : beNat (cutBytes (keyHead ++ root1 lv) 0 4) = 1 := rfl
    have hK : (keyHead ++ root1 lv).length = 60 := by rw [List.length_append, hr]; rfl
    simp only [hssVerify, hm, hL, hK, hn, h0]; rfl
  have : (granting lv).tokenSigned (token1 lv) = hssVerify (key1 lv) ((token1 lv).take 336) (sig1 lv) := by
    rw [State.tokenSigned, granting_key lv hl, hs]; rfl
  rw [this, key1_eq, hk]
theorem wit_TokensGrantLevels_granted (lv : Byte) (hl : lv = 1 ∨ lv = 3) : (granting lv).prodomRuns = true ∧
    (granting lv).tokenResult (token1 lv) = 2 ∧ memReadN (granting lv).sec.token 0 6052 = token1 lv ∧
    sub (token1 lv) 4 1 = lv.toNat ∧ (granting lv).sec.level.toNat < sub (token1 lv) 4 1 ∧
    tokenFormat (token1 lv) = true ∧ (granting lv).tokenSigned (token1 lv) = true ∧
    (granting lv).tokenNames (token1 lv) = true ∧ (granting lv).alarmed = false ∧
    (granting lv).sec.keysLive = true ∧ (granting lv).power.st ≠ .off := by
  have hf : tokenFormat (token1 lv) = true := by rcases hl with rfl | rfl <;> decide +kernel
  have hn : (granting lv).tokenNames (token1 lv) = true := by rcases hl with rfl | rfl <;> decide +kernel
  have ha : (granting lv).alarmed = false := by rcases hl with rfl | rfl <;> decide +kernel
  have h0 : sub (token1 lv) 4 1 = lv.toNat := by rcases hl with rfl | rfl <;> decide +kernel
  have h1 : sub (token1 lv) 16 32 = (granting lv).sec.nonce.toNat := by rcases hl with rfl | rfl <;> decide +kernel
  have h2 : sub (token1 lv) 48 32 = 0 := by rcases hl with rfl | rfl <;> decide +kernel
  have h3 : (granting lv).sec.level.toNat < lv.toNat := by rcases hl with rfl | rfl <;> decide
  have hs := token1_signed lv hl
  refine ⟨rfl, ?_, rfl, h0, h0 ▸ h3, hf, hs, hn, ha, rfl, nofun⟩
  have hk : (granting lv).sec.keysLive = true := rfl
  have hv : (granting lv).vault.nonceValid = true := rfl
  have ho : (granting lv).sec.owned = false := rfl
  simp [State.tokenResult, ha, hf, hn, hs, h0, h1, h2, Nat.not_le.mpr h3, hk, hv, ho]
theorem wit_TokensGrantLevels_lower : ∃ s : State, s.prodomRuns = true ∧ s.sec.level = 2 ∧ s.sec.level ≠ 3 :=
  ⟨{ up with sec := { up.sec with level := 2 } }, by decide⟩

/-- A member whose attestation is ready, its destination at lagoon offset 0. -/
def attesting : State :=
  { up with sec := { up.sec with att := 1, attDst := 0x8000000000000 }, vault := { up.vault with block := some 0 } }
theorem wit_AttestationAnswers : up.prodomRuns = true ∧ up.sec.att ≠ 1 := by decide
theorem wit_AttestationAnswers_report : attesting.prodomRuns = true ∧ attesting.alarmed = false ∧
    attesting.sec.att = 1 ∧ attesting.locate attesting.sec.attDst.toNat = .lagoon 0 ∧ 0 + 5504 ≤ 0x40000000 ∧
    attesting.sec.leaf.toNat / 32768 = attesting.vault.tree ∧ attesting.sec.leaf.toNat < 2 ^ 25 ∧
    attesting.vault.block = some (BitVec.ofNat 32 (attesting.sec.leaf.toNat / 256)) ∧
    CleanSpan Env.quiet attesting 0 5492 :=
  ⟨by decide, by decide, by decide, by decide, by decide, by decide, by decide, by decide,
    fun _ _ _ => ⟨rfl, rfl, nofun, nofun⟩⟩
theorem wit_AttestationAnswers_badDst : ∃ s : State, s.prodomRuns = true ∧ s.alarmed = false ∧ s.sec.att = 1 ∧
    s.attDstOk = false := ⟨{ attesting with sec := { attesting.sec with attDst := 0 } }, by decide⟩
theorem wit_AttestationAnswers_wait : ∃ s : State, s.prodomRuns = true ∧ s.alarmed = false ∧ s.sec.att = 1 ∧
    s.attDstOk = true ∧ s.vault.nextTree = false ∧ s.sec.leaf.toNat / 32768 ≠ s.vault.tree :=
  ⟨{ attesting with sec := { attesting.sec with leaf := 32768 } }, by decide⟩

theorem wit_AttestationBecomesReady : ∃ s : State, s.sec.keysLive = true ∧ s.sec.att = 0 ∧ s.sec.bindPending = true ∧
    s.sec.leaf.toNat < 2 ^ 25 ∧ s.vault.block = some (BitVec.ofNat 32 (s.sec.leaf.toNat / 256)) :=
  ⟨{ attesting with sec := { attesting.sec with att := 0, keysLive := true, bindPending := true } }, by decide⟩
theorem wit_AttestationBecomesReady_plain : ∃ s : State, s.sec.keysLive = true ∧ s.sec.att = 0 ∧
    s.sec.bindPending = false :=
  ⟨{ attesting with sec := { attesting.sec with att := 0, keysLive := true } }, by decide⟩
theorem wit_AttestationBecomesReady_tree : ∃ s : State, s.sec.att = 1 ∧ 16384 ≤ s.sec.leaf.toNat % 32768 ∧
    s.vault.attWait = false := ⟨{ attesting with sec := { attesting.sec with leaf := 16384 } }, by decide⟩
theorem wit_AttestationBecomesReady_waiting : ∃ s : State, s.sec.att = 1 ∧ s.vault.attWait = true ∧
    s.sec.leaf.toNat / 32768 ≠ s.vault.tree :=
  ⟨{ attesting with sec := { attesting.sec with leaf := 32768 }, vault := { attesting.vault with attWait := true } },
    by decide⟩
theorem wit_AttestationBecomesReady_early : attesting.sec.att = 1 ∧ attesting.sec.leaf.toNat % 32768 < 16384 ∧
    attesting.sec.leaf.toNat / 32768 = attesting.vault.tree := by decide
theorem wit_AttestationBecomesReady_alone : ∃ s : State, s.pk.lead = true ∧ s.pk.running = true ∧
    s.sec.pkgAuth = false ∧ s.alarmed = false ∧ s.sec.att = 1 ∧
    (s.presentIds.filter (· != s.pk.id.toNat)).all (s.memberOk []) = true :=
  ⟨{ lead with sec := { lead.sec with att := 1 } }, by decide⟩
theorem wit_AttestationBecomesReady_missing : ∃ s : State, s.pk.lead = true ∧ s.pk.running = true ∧
    s.sec.pkgAuth = false ∧ s.alarmed = false ∧ s.sec.att = 1 ∧ s.power.st ≠ .off ∧
    (s.presentIds.filter (· != s.pk.id.toNat)).all (s.memberOk []) = false :=
  ⟨{ lead with sec := { lead.sec with att := 1 }, pk := { lead.pk with steps := 0x1100 } }, by decide⟩

theorem wit_TapInstructionsNeedTheirLevel : up.sec.level.toNat < tapLevel (.halt 7) := by decide
theorem wit_TapInstructionsNeedTheirLevel_scan : ∃ s : State, s.sec.level.toNat < 3 ∧ s.sec.keysLive = true ∧
    s.power.st ≠ .off := ⟨{ up with sec := { up.sec with keysLive := true } }, by decide⟩
theorem wit_TapInstructionsNeedTheirLevel_d2 : ∃ s : State, 2 ≤ s.sec.level.toNat :=
  ⟨{ up with sec := { up.sec with level := 2 } }, by decide⟩
theorem wit_TapInstructionsNeedTheirLevel_shift : ∃ s : State, s.vault.segments.getLsbD 7 = true ∧
    s.vault.segBusy.getLsbD 7 = false ∧ s.routePort 7 = some 2 :=
  ⟨{ up with vault := { up.vault with segments := 0x80 }, pk := { up.pk with route := 0x800000 } }, by decide⟩
theorem wit_TapInstructionsNeedTheirLevel_unit : ∃ s : State, s.vault.segBusy.getLsbD 7 = true :=
  ⟨{ up with vault := { up.vault with segBusy := 0x80 } }, by decide⟩

theorem wit_ReadsClearOnlyCountsThatClear : up.power.st ≠ .off ∧ ctlAligned 0x20 8 = true ∧ ctlAligned 0x4014 4 = true ∧
    up.pk.lead = false := by decide
theorem wit_ReadsClearOnlyCountsThatClear_log : ∃ s : State, s.logOpen = true ∧ 0 + 8 ≤ s.life.logSize ∧
    s.life.logWin.toNat = 0 :=
  ⟨{ lead with life := { lead.life with logSize := 0x800000 } }, by decide⟩

theorem wit_SettingsAreLockedInOperation : ctlAligned 0x8808 8 = true ∧ ctlAligned 0x8008 8 = true ∧ 0x8008 / 8 = 0x1001 ∧
    0x8800 / 8 = 0x1100 ∧ up.pk.running = true := by decide

theorem wit_WritesSetTheirFields : State.reset.power.st ≠ .off ∧ State.reset.pk.running = false := by decide
theorem wit_WritesSetTheirFields_cluster : up.present (63 / 8) (63 % 8) = true ∧ up.power.st ≠ .off ∧
    up.pk.lead = false := by decide
theorem wit_WritesSetTheirFields_aligned : ctlAligned 0xFFF8 8 = true ∧ ctlAligned 6 4 = false ∧
    (up.regions.get 0).flt.en = false := by decide

theorem wit_LifetimeFlushes : lead.leadRuns = true ∧ lead.life.busy = false ∧ lead.power.offPending = false ∧
    lead.power.runs = true := by decide
theorem wit_LifetimeFlushes_busy : ∃ s : State, s.pk.lead = true ∧ s.life.busy = true ∧ s.power.offPending = false ∧
    s.life.alarmLater = false ∧ s.power.runs = true :=
  ⟨{ lead with life := { lead.life with busy := true } }, by decide⟩
theorem wit_LifetimeFlushes_member : up.pk.lead = false ∧ up.power.runs = true ∧ up.life.busy = false := by decide
theorem wit_LifetimeFlushes_mirror : ∃ s : State, s.life.busy = false ∧ s.pk.lead = false ∧ s.life.mirror = true :=
  ⟨{ up with life := { up.life with mirror := true } }, by decide⟩

theorem wit_ContextStartsAreQueued : 262143 = field (0x3FFFF#32).toNat 0 18 ∧ 262143 / 32768 = (7 : Region).1 ∧
    262143 ∉ (up.regions.get 7).fy.queue ∧ (∀ c ∈ (up.regions.get 7).fy.loaded, c.number ≠ some 262143) ∧
    (up.regions.get 7).fy.queue.length < 4096 ∧ memWf up.mem.ctx = true := by decide
theorem wit_ContextStartsAreQueued_again : ∃ s : State, 0 = field (0#32).toNat 0 18 ∧ 0 / 32768 = (0 : Region).1 ∧
    0 ∈ (s.regions.get 0).fy.queue := ⟨up.onFerry 0 fun y => { y with queue := [0] }, by decide⟩
theorem wit_ContextStartsAreQueued_outside : 32768 = field (32768#32).toNat 0 18 ∧ 32768 / 32768 ≠ (0 : Region).1 := by
  decide
theorem wit_ContextStartsAreQueued_full : ∃ s : State, 0 ∉ (s.regions.get 0).fy.queue ∧
    (∀ c ∈ (s.regions.get 0).fy.loaded, c.number ≠ some 0) ∧ 4096 ≤ (s.regions.get 0).fy.queue.length := by
  refine ⟨up.onFerry 0 fun y => { y with queue := List.replicate 4096 1 }, ?_, ?_, ?_⟩
  · show 0 ∉ List.replicate 4096 1
    intro h; exact absurd (List.eq_of_mem_replicate h) (by decide)
  · show ∀ c ∈ (up.regions.get 0).fy.loaded, c.number ≠ some 0
    decide
  · show 4096 ≤ (List.replicate 4096 1).length
    exact Nat.le_of_eq (List.length_replicate (n := 4096) (a := 1)).symm

/-- Context 0 queued, its entry as given. -/
def queued (c : FerryCtx) : State := (up.putTableCtx 0 c).onFerry 0 fun y => { y with queue := [0] }
/-- A copy of lagoon block 0 to the last block. -/
def copyCtx : FerryCtx :=
  { FerryCtx.ofNat 0 with
    src := 0x8000000000000, dst := 0x800003FFFFFC0, rows := 1, cols := 64, planes := 1 }
theorem wit_FerriesMoveBlocks : ((queued copyCtx).regions.get 0).fy.queue = [0] ∧ MayTakeUp (queued copyCtx) 0 :=
  ⟨by decide, by decide, ⟨7, by decide, by decide⟩, by decide⟩
theorem wit_FerriesMoveBlocks_copy : BlockCopy (queued copyCtx) ((queued copyCtx).tableCtx 0) 0 0x3FFFFFC0 ∧
    CleanSpan Env.quiet (queued copyCtx) 0 64 :=
  ⟨by unfold BlockCopy; decide +kernel, fun b _ h => by
    have : b = 0 := by omega
    subst this; decide⟩
theorem wit_FerriesMoveBlocks_bad : ∃ s : State, (s.regions.get 0).fy.queue = [0] ∧ MayTakeUp s 0 ∧
    { s.tableCtx 0 with state := 1 }.badFormat = true ∧ (s.tableCtx 0).recRel = false ∧ (s.tableCtx 0).recd = 0 ∧
    (s.regions.get 0).flt.en = false :=
  ⟨queued { copyCtx with fmt := 15 }, by decide, ⟨by decide, ⟨7, by decide, by decide⟩, by decide⟩, by decide +kernel,
    by decide +kernel, by decide +kernel, by decide⟩
theorem wit_FerriesMoveBlocks_place : ∃ s : State, { s.tableCtx 0 with state := 1 }.badFormat = false ∧ (s.tableCtx 0).badPlace = true :=
  ⟨queued { copyCtx with dst := 0x8000300000000 }, by decide +kernel⟩
theorem wit_FerriesMoveBlocks_none : (up.regions.get 0).fy.queue = [] ∧ ∃ s : State,
    ∀ e0, e0 < 8 → 16 ≤ ((s.regions.get 0).fy.onEngine none e0).length :=
  ⟨by decide, up.onFerry 0 fun y =>
    { y with loaded := (List.range 128).map fun i => LoadedCtx.mk' i none none none none (i / 16) copyCtx },
    by decide +kernel⟩

/-- A context loaded in region 0 that copies 64 bytes from `src`; chiplet 1 lies behind port 2. -/
def readCtx (src : Nat) : LoadedCtx := LoadedCtx.mk' 0 none none none none 0 { copyCtx with src := src }
/-- `peered` with that context. -/
def reading (src : Nat) : State :=
  ({ peered with pk := { peered.pk with route := 0x20 } }.onPort 2 fun q =>
    { q with partner := List.replicate 48 1 }).onFerry 0 fun y => { y with nextId := 1, loaded := [readCtx src] }
theorem wit_FerriesReadUnderTags : ∃ (u : W) (v : Way), (reading 0x18000000000000).loaded 0 0 = some (readCtx 0x18000000000000) ∧
    (readCtx 0x18000000000000).nextPiece .t8 = some (0, 0, 64, [⟨0, [(0, 64)], 0, []⟩]) ∧
    Fmt.ofCode (readCtx 0x18000000000000).c.fmt = some .t8 ∧
    (reading 0x18000000000000).wantsRead (readCtx 0x18000000000000) = true ∧
    (reading 0x18000000000000).freeTag = some 0 ∧ (reading 0x18000000000000).ferriesRun 0 = true ∧
    (reading 0x18000000000000).tagAllows 0 (readCtx 0x18000000000000) = true ∧
    (reading 0x18000000000000).itsTurn 0 (readCtx 0x18000000000000) = true ∧
    (⟨reading 0x18000000000000, Env.quiet⟩ : W).exit 0x18000000000000 .read = (u, .inl v) ∧ v.port = 2 :=
  ⟨_, _, by decide +kernel, by decide +kernel, by decide, by decide +kernel, by decide +kernel, by decide,
    by decide +kernel, by decide +kernel, rfl, rfl⟩
theorem wit_FerriesReadUnderTags_post : (reading 0x18000000000000).mayPost
    ⟨2, 1, 0, 0x18000000000000, 64, [], 0, 0, 0, 0, .ferry 0 0 0 0 64 0⟩ = true := by decide +kernel
theorem wit_FerriesReadUnderTags_down : ∃ (u : W) (st : Status),
    (⟨reading 0x28000000000000, Env.quiet⟩ : W).exit 0x28000000000000 .read = (u, .inr st) := ⟨_, _, rfl⟩

/-- A finished context of the table, or a working one, loaded as number 0 of region 0. -/
def doneCtx (number : Option Nat) (c : FerryCtx) : LoadedCtx :=
  { LoadedCtx.mk' 0 number none none none 0 c with c := { c with cur := 1 } }
/-- `up` with that context. -/
def finished (number : Option Nat) (c : FerryCtx) : State := up.onFerry 0 fun y => { y with loaded := [doneCtx number c] }
/-- A copy that goes on with context 5. -/
def chainedCtx : FerryCtx := { copyCtx with nextEn := true, next := 5 }
theorem wit_FerryContextsEnd : (finished (some 5) chainedCtx).loaded 0 0 = some (doneCtx (some 5) chainedCtx) ∧
    (doneCtx (some 5) chainedCtx).complete = true ∧ (finished (some 5) chainedCtx).alarmed = false ∧
    (finished (some 5) chainedCtx).recordOf (doneCtx (some 5) chainedCtx) = 0 ∧
    (doneCtx (some 5) chainedCtx).c.next / 32768 = (0 : Region).1 ∧
    (∀ x ∈ ((finished (some 5) chainedCtx).regions.get 0).fy.loaded, x.id ≠ 0 → x.number ≠ some 5) := by decide +kernel
theorem wit_FerryContextsEnd_working : (finished none copyCtx).loaded 0 0 = some (doneCtx none copyCtx) ∧
    (doneCtx none copyCtx).complete = true ∧ (doneCtx none copyCtx).number = none ∧ NoneWait (finished none copyCtx) 0 :=
  ⟨by decide +kernel, by decide +kernel, by decide, nofun⟩
theorem wit_FerryContextsEnd_not : (readCtx 0).complete = false := by decide
theorem wit_FerryContextsEnd_record : ∃ c : FerryCtx, (finished none c).recordOf (doneCtx none c) ≠ 0 ∧ c.nextEn = false ∧
    (finished none c).locate ((finished none c).recordOf (doneCtx none c)) = .lagoon 4096 ∧
    CleanSpan Env.quiet (finished none c) 4096 320 :=
  ⟨{ copyCtx with recd := 0x8000000001000 / 64 }, by decide +kernel, by decide, by decide +kernel,
    fun _ _ _ => ⟨rfl, rfl, nofun, nofun⟩⟩

/-- The slice of region 7 about to scrub its last block. -/
def scrubbing : State := up.onFerry 7 fun y => { y with scrubEn := true, scrubPos := 0x1FFFFF }
theorem wit_ScrubbingFindsBadBlocks : ∃ e : Env, 16777215 = (7 : Region).1 * 2097152 +
    (scrubbing.regions.get 7).fy.scrubPos.toNat ∧ (scrubbing.regions.get 7).fy.scrubEn = true ∧
    scrubbing.regionOn 7 = true ∧ scrubbing.power.forced = false ∧ scrubbing.power.haltedRegions.getLsbD 7 = false ∧
    scrubbing.poisoned 16777215 = false ∧ scrubbing.crcWrong 16777215 = false ∧
    16777215 ∉ e.crcTwice ∧ 16777215 ∈ e.crcOnce := ⟨{ Env.quiet with crcOnce := [16777215] }, by decide⟩
theorem wit_ScrubbingFindsBadBlocks_twice : ∃ e : Env, scrubbing.poisoned 16777215 = false ∧ 16777215 ∈ e.crcTwice ∧
    (scrubbing.regions.get 7).flt.en = false := ⟨{ Env.quiet with crcTwice := [16777215] }, by decide⟩
theorem wit_ScrubbingFindsBadBlocks_off : ∃ s : State, (s.regions.get 0).fy.scrubEn = false :=
  ⟨up.onFerry 0 fun y => { y with scrubEn := false }, by decide⟩
theorem wit_ScrubbingFindsBadBlocks_clear : field (0x3FFFFFC0#64).toNat 6 24 / 2097152 = (7 : Region).1 ∧
    field (0#64).toNat 6 24 / 2097152 ≠ (7 : Region).1 := by decide

/-- Loops of one array tile and one group of K. -/
def loop1 (slots : Nat) : Loop :=
  { tk := 32, tn := 128, tm := 128, tb2 := 1, tb1 := 1, buf := 0, slots := slots, order := [0, 1, 2, 3, 4] }
/-- Cluster 7 of region 7, alone in group 0. -/
def pos0 : Position := ⟨0, 0, 0, 0, 0, 0, 7, 7⟩
/-- `chart0` with a staging pattern of slot A at every level, one of the side vector at L1, and a write-back of
slot 2. -/
def stageChart (n : Nat) : Chart :=
  { chart0 with
    patterns := [⟨0, 0, 0, 0, FerryCtx.ofNat 0⟩, ⟨1, 1, 0, 0, FerryCtx.ofNat 0⟩, ⟨12, 2, 0, 0, FerryCtx.ofNat 0⟩,
      ⟨2, 3, 0, 0, FerryCtx.ofNat 0⟩],
    args := List.replicate 16 { ArgEntry.ofNat 0 with base := 0x8000000000000 },
    l1 := loop1 1, l2 := loop1 n, l3 := loop1 1, positions := [pos0] }
/-- Instance 0 of region 7 running it on cluster 7 of the region, tile 0 issued. -/
def staging (n : Nat) : State :=
  ((bound 2 .running).onInst 7 0 fun i =>
    { i with chart := some (stageChart n), bounds := List.replicate 8 1, args := List.replicate 512 0 }).onCluster 63 fun y =>
    { y with inst := some (7, 0), pos := some pos0, issued := [0] }
theorem wit_StagingAndWriteBack : ∃ (p : Pattern) (x : Src), ((staging 1).inst 7 0).chart = some (stageChart 1) ∧
    (stageChart 1).patterns[0]? = some p ∧ MayStage (staging 1) 7 0 p.level 7 ∧ p.level = 0 ∧
    (∀ d, d < 5 → ((List.range 5).map fun d => [0, 0, 0, 0, 0].getD d 0 * ((stageChart 1).stageLoop p.level).ext d).getD d 0 <
      boundOf ((staging 1).inst 7 0).bounds d) ∧ (staging 1).unitClusters (7, 0) p.level 7 ≠ [] ∧
    (p.units 7).headD 64 = 7 ∧
    some (argSrc (boundArg (stageChart 1) ((staging 1).inst 7 0).args p.arg) (staging 1).pk.id.toNat) = some x ∧
    (staging 1).stagerAt (7, 0) (stageChart 1) ((staging 1).inst 7 0).bounds p.level 0 7 [0, 0, 0, 0, 0] = true ∧
    (staging 1).pickSlot (7, 0) (stageChart 1) ((staging 1).inst 7 0).bounds p.level 7 [0, 0, 0, 0, 0] = some (0, []) ∧
    ∀ m, ¬ InStaging (staging 1) (7, 0) 0 0 [7, 0, 0, 0, 0, 0] m :=
  ⟨⟨0, 0, 0, 0, FerryCtx.ofNat 0⟩, _, by decide +kernel, by decide, ⟨.inl (by decide), by decide, by decide, .inl rfl⟩,
    by decide, by decide +kernel, by decide +kernel, by decide, rfl, by decide +kernel, by decide +kernel, fun _ h => nomatch h.choose_spec.1⟩
theorem wit_StagingAndWriteBack_l2 : ∃ (p : Pattern) (x : Src), (stageChart 1).patterns[1]? = some p ∧
    MayStage (staging 1) 7 0 p.level 63 ∧ p.level = 1 ∧ (stageChart 1).l2.slots ≠ 0 ∧
    (staging 1).src (7, 0) (stageChart 1) ((staging 1).inst 7 0).args 63 1 p.arg [0, 0, 0, 0, 0] = some x ∧
    (staging 1).stagerAt (7, 0) (stageChart 1) ((staging 1).inst 7 0).bounds p.level 1 63 [0, 0, 0, 0, 0] = true ∧
    (staging 1).pickSlot (7, 0) (stageChart 1) ((staging 1).inst 7 0).bounds p.level 63 [0, 0, 0, 0, 0] = some (0, []) :=
  ⟨⟨1, 1, 0, 0, FerryCtx.ofNat 0⟩, _, by decide, ⟨.inl (by decide), by decide, by decide, .inr ⟨by decide, by decide⟩⟩,
    by decide, by decide, rfl, by decide +kernel, by decide +kernel⟩
theorem wit_StagingAndWriteBack_direct : ∃ p : Pattern, (stageChart 0).patterns[1]? = some p ∧
    MayStage (staging 0) 7 0 p.level 63 ∧ p.level = 1 ∧ (stageChart 0).l2.slots = 0 :=
  ⟨⟨1, 1, 0, 0, FerryCtx.ofNat 0⟩, by decide, ⟨.inl (by decide), by decide, by decide, .inr ⟨by decide, by decide⟩⟩,
    by decide, by decide⟩
/-- The place of tile 0 of `stageChart` and its size. -/
def geom0 : TileGeom := tileGeom (stageChart 1) (List.replicate 8 1) 0 0
theorem wit_StagingAndWriteBack_l1 : ∃ (p : Pattern) (x : Src), (stageChart 1).patterns[2]? = some p ∧
    MayStage (staging 1) 7 0 p.level 63 ∧ p.level = 2 ∧ ((staging 1).clusters.get 63).slotOf (stageChart 1) 0 = some 0 ∧
    (staging 1).src (7, 0) (stageChart 1) ((staging 1).inst 7 0).args 63 2 p.arg
      [geom0.row0, geom0.col0, 0, geom0.b1, geom0.b2] = some x ∧
    (staging 1).fillContexts (stageChart 1) ((staging 1).inst 7 0).args p 63 0 0 geom0 x ≠ [] ∧
    (∀ u ∈ p.units 63, ∀ h ∈ ((staging 1).clusters.get (fin 63 u)).held, h.2 = 0 → h.1 = 0) ∧
    (p.units 63).headD 64 = 63 ∧ ∀ m, ¬ InStaging (staging 1) (7, 0) 2 2 [63, 0] m :=
  ⟨⟨12, 2, 0, 0, FerryCtx.ofNat 0⟩, _, by decide, ⟨.inl (by decide), by decide, by decide, .inr ⟨by decide, by decide⟩⟩,
    by decide, by decide +kernel, rfl, List.cons_ne_nil _ _, by decide +kernel, by decide, fun _ h => nomatch h.choose_spec.1⟩
/-- An output of one row of eight T8 elements. -/
def output (bad : Bool) : OutSlot := ⟨2, 0, 0, ⟨0, 0, 0, 0, 1, 8, 0⟩, .t8, bad, [], 0, none⟩
/-- `staging` with that output waiting. -/
def waiting (bad : Bool) : State := (staging 0).onCluster 63 fun y => { y with outs := [output bad] }
theorem wit_StagingAndWriteBack_out : ∃ (p : Pattern) (part : Nat × Nat),
    ((waiting false).inst 7 0).chart = some (stageChart 0) ∧ (stageChart 0).patterns[3]? = some p ∧
    (stageChart 0).positions[0]? = some pos0 ∧ 63 = fin 63 (8 * pos0.region + pos0.cluster) ∧
    ((waiting false).clusters.get 63).outs.find? (·.arg == p.arg) = some (output false) ∧ p.level = 3 ∧
    pos0.chiplet = (waiting false).pk.id.toNat ∧ ((waiting false).clusters.get 63).inst = some (7, 0) ∧
    (waiting false).alarmed = false ∧ (waiting false).clusterOn 63 = true ∧
    shapeMulti (modeShape (stageChart 0).mode) = false ∧ p.ctx.recRel = false ∧ p.ctx.recd = 0 ∧
    (stageChart 0).accum = false ∧ outParts (stageChart 0) (output false) 0 = [part] ∧
    (waiting false).locateN (elemAddr (boundArg (stageChart 0) ((waiting false).inst 7 0).args 2) .t8 false
      (waiting false).pk.id.toNat (0 + 0) 0 0 0) 8 = .lagoon 0 :=
  ⟨⟨2, 3, 0, 0, FerryCtx.ofNat 0⟩, _, by decide +kernel, by decide, by decide, by decide, by decide +kernel, by decide,
    by decide, by decide +kernel, by decide, by decide, by decide, by decide, by decide, by decide, rfl, by decide +kernel⟩
theorem wit_StagingAndWriteBack_clean : CleanSpan Env.quiet (waiting false) 0 8 := fun b _ h => by
  have : b = 0 := by omega
  subst this; decide
theorem wit_StagingAndWriteBack_bad : ((waiting true).clusters.get 63).outs.find? (·.arg == 2) = some (output true) ∧
    (output true).poisoned = true ∧ ((waiting true).inst 7 0).st = .running ∧ ((waiting true).inst 7 0).faulting = 0 ∧
    ((waiting true).regions.get (fin 7 7)).flt.en = false := by decide +kernel
theorem wit_StagingAndWriteBack_not : ¬ MayStage up 7 0 0 7 ∧ ∃ y : State, (y.clusters.get 63).arrayDone 0 = false :=
  ⟨fun h => absurd h.1 (by decide), staging 0, by decide⟩

/-- `staging` with its group about to draw from counter 1,023 of its own chiplet. -/
def drawing (v l : W64) (redo : List Nat) : State :=
  ((staging 0).onInst 7 0 fun i =>
    { i with
      chart := some { stageChart 0 with positions := [⟨0, 0, 1023, 0, 0, 0, 7, 7⟩] },
      groups := [Group.fresh 0 redo] }).onRegion 7 fun y => { y with counters := vmod y.counters 127 fun _ => ⟨v, l⟩ }
theorem wit_DrawsIssueTiles : ∃ (c : Chart) (p : Position), ((drawing 0 5 []).inst 7 0).chart = some c ∧
    ((drawing 0 5 []).inst 7 0).groups.find? (·.g == 0) = some (Group.fresh 0 []) ∧ c.leader 0 = some p ∧
    (∀ x ∈ ((drawing 0 5 []).inst 7 0).groups, x.g = 0 → x = Group.fresh 0 []) ∧
    tileCount c ((drawing 0 5 []).inst 7 0).bounds < 2 ^ 63 ∧ p.chiplet = (drawing 0 5 []).pk.id.toNat ∧
    p.ctrChiplet = (drawing 0 5 []).pk.id.toNat ∧ p.counter = 1023 ∧
    ((drawing 0 5 []).counter 1023).value.toNat < ((drawing 0 5 []).counter 1023).limit.toNat :=
  ⟨{ stageChart 0 with positions := [⟨0, 0, 1023, 0, 0, 0, 7, 7⟩] }, ⟨0, 0, 1023, 0, 0, 0, 7, 7⟩, by decide +kernel⟩
theorem wit_DrawsIssueTiles_may : MayDraw (drawing 0 5 []) (7, 0) (Group.fresh 0 []) ⟨0, 0, 1023, 0, 0, 0, 7, 7⟩ ∧
    ¬ MayDraw up (7, 0) (Group.fresh 0 []) pos0 := by
  unfold MayDraw; decide +kernel
theorem wit_DrawsIssueTiles_end : ((drawing 5 5 []).counter 1023).limit.toNat ≤
    ((drawing 5 5 []).counter 1023).value.toNat := by decide
theorem wit_DrawsIssueTiles_redo : ((drawing 0 5 [9]).inst 7 0).groups.find? (·.g == 0) = some (Group.fresh 0 [9]) ∧
    (Group.fresh 0 [9]).redo = [9] := by decide
theorem wit_DrawsIssueTiles_remote : (⟨0, 1, 1023, 0, 0, 0, 7, 7⟩ : Position).ctrChiplet ≠ up.pk.id.toNat ∧
    (⟨0, 1, 1023, 0, 0, 1, 7, 7⟩ : Position).chiplet ≠ up.pk.id.toNat := by decide

/-- A tile of one element in pass on cluster 63, its operands being beyond K. -/
def tile1 (k : Nat) (full : Bool) : Tile :=
  ⟨0, 0, ⟨0, 0, 0, 0, 1, 1, 0⟩, 32, 0, 0, k, full, false, [⟨[], IVal.zero, 0⟩]⟩
/-- `staging` with that tile, and with what else a cluster may hold. -/
def working (f : ClusterSt → ClusterSt) : State := (staging 0).onCluster 63 f
theorem wit_ArraysComputeTiles : ∃ (s : State) (t : Tile) (u v : W) (as bs : List Entry),
    s.atWork 63 = some ((7, 0), stageChart 0, pos0) ∧ (s.clusters.get 63).tile = some t ∧ t.full = false ∧
    (⟨s.waitedCc 63 0, Env.quiet⟩ : W).edge (7, 0) (stageChart 0) (s.clusters.get 63).mode.toNat 63 t.index t.geom 0 t.k =
      (u, .got as) ∧
    u.edge (7, 0) (stageChart 0) (s.clusters.get 63).mode.toNat 63 t.index t.geom 1 t.k = (v, .got bs) ∧
    bs.length = t.geom.nv ∧ t.geom.nv ≤ 128 :=
  ⟨working fun y => { y with tile := some (tile1 31 false), issued := [] }, tile1 31 false, _, _, _, _, by decide +kernel,
    by decide +kernel, by decide, rfl, rfl, by decide +kernel, by decide⟩
/-- A tile of one element of `stageChart` without its patterns, operand A poisoned in the lagoon. -/
def poisoned : State :=
  { ((working fun y => { y with tile := some { tile1 0 false with geom := ⟨0, 0, 0, 0, 1, 1, 1⟩ }, issued := [] }).onInst 7 0
      fun i => { i with chart := some { stageChart 0 with patterns := [] } }) with
    mem := { (staging 0).mem with poison := [0] } }
theorem wit_ArraysComputeTiles_fault : ∃ (t : Tile) (u : W),
    poisoned.atWork 63 = some ((7, 0), { stageChart 0 with patterns := [] }, pos0) ∧
    (poisoned.clusters.get 63).tile = some t ∧ t.full = false ∧
    (⟨poisoned.waitedCc 63 0, Env.quiet⟩ : W).edge (7, 0) { stageChart 0 with patterns := [] }
      (poisoned.clusters.get 63).mode.toNat 63 t.index t.geom 0 t.k = (u, .fault 1) :=
  ⟨{ tile1 0 false with geom := ⟨0, 0, 0, 0, 1, 1, 1⟩ }, _, by decide +kernel, by decide +kernel, by decide, rfl⟩
theorem wit_ArraysComputeTiles_chunk : ∃ (s : State) (t : Tile),
    s.atWork 63 = some ((7, 0), stageChart 0, pos0) ∧ (s.clusters.get 63).tile = some t ∧ t.full = true ∧
    (s.clusters.get 63).promo = none ∧ chartMode (stageChart 0) ≠ .strict :=
  ⟨working fun y => { y with tile := some (tile1 32 true), issued := [] }, tile1 32 true, by decide +kernel⟩
theorem wit_ArraysComputeTiles_take : ∃ (s : State) (i : Nat), s.atWork 63 = some ((7, 0), stageChart 0, pos0) ∧
    (s.clusters.get 63).tile = none ∧ (s.clusters.get 63).issued = [i] ∧ s.mayTake (7, 0) pos0.group i = true ∧
    (tileGeom (stageChart 0) (s.inst 7 0).bounds i pos0.quad).mv ≠ 0 ∧
    (tileGeom (stageChart 0) (s.inst 7 0).bounds i pos0.quad).nv ≠ 0 ∧
    (posSteps (stageChart 0) pos0 (tileGeom (stageChart 0) (s.inst 7 0).bounds i pos0.quad).k).1 <
      (posSteps (stageChart 0) pos0 (tileGeom (stageChart 0) (s.inst 7 0).bounds i pos0.quad).k).2 :=
  ⟨staging 0, 0, by decide +kernel⟩
theorem wit_ArraysComputeTiles_empty : ∃ s : State, s.atWork 63 = some ((7, 0), stageChart 0, pos0) ∧
    (s.clusters.get 63).issued = [0] ∧ s.mayTake (7, 0) pos0.group 0 = true ∧
    (tileGeom (stageChart 0) (s.inst 7 0).bounds 0 pos0.quad).mv = 0 :=
  ⟨(staging 0).onInst 7 0 fun i => { i with bounds := [] }, by decide +kernel⟩
/-- The promotion of a tile of one element. -/
def promo1 (last : Bool) : Promo := ⟨0, 0, ⟨0, 0, 0, 0, 1, 1, 1⟩, 0, last, List.replicate 4 IVal.zero, [0], false, false⟩
theorem wit_ArraysComputeTiles_promote : ∃ s : State, s.atWork 63 = some ((7, 0), stageChart 0, pos0) ∧
    (s.clusters.get 63).promo = some (promo1 false) ∧ (promo1 false).row < 128 ∧ (promo1 false).geom.nv ≤ 128 ∧
    (s.clusters.get 63).bank.length = (promo1 false).geom.keptRows * (promo1 false).geom.keptCols ∧
    (promo1 false).last = false :=
  ⟨working fun y => { y with promo := some (promo1 false), bank := List.replicate 4 IVal.zero }, by decide +kernel⟩
theorem wit_ArraysComputeTiles_last : ∃ (s : State) (u : W) (ins : List EpiIn),
    s.atWork 63 = some ((7, 0), stageChart 0, pos0) ∧ (s.clusters.get 63).promo = some (promo1 true) ∧
    (promo1 true).last = true ∧ pos0.chainPos = 0 ∧ nextPosition (stageChart 0) pos0 = none ∧
    (s.clusters.get 63).bank.length = (promo1 true).geom.keptRows * (promo1 true).geom.keptCols ∧
    (s.clusters.get 63).drainRoom (stageChart 0) (promo1 true) = true ∧ (promo1 true).row < (promo1 true).geom.mv ∧
    (⟨s, Env.quiet⟩ : W).epiInputs (7, 0) (stageChart 0) 63 (promo1 true) = (u, .got ins) :=
  ⟨working fun y => { y with promo := some (promo1 true), bank := List.replicate 4 IVal.zero }, _, _, by decide +kernel,
    by decide +kernel, by decide, by decide, by decide, by decide +kernel, by decide +kernel, by decide, rfl⟩
/-- `stageChart` in shape TP2: the first position of a chain of two, on clusters 7 and 6 of region 7. -/
def chainChart : Chart := { stageChart 0 with mode := 0x1000000, positions := [pos0, { pos0 with chainPos := 1, cluster := 6 }] }
theorem wit_ArraysComputeTiles_chain : ∃ (s : State) (next : Position), s.atWork 63 = some ((7, 0), chainChart, pos0) ∧
    (s.clusters.get 63).promo = some (promo1 true) ∧ nextPosition chainChart pos0 = some next ∧
    s.outboxHolds next = false :=
  ⟨(working fun y => { y with promo := some (promo1 true), bank := List.replicate 4 IVal.zero }).onInst 7 0 fun i =>
    { i with chart := some chainChart }, { pos0 with chainPos := 1, cluster := 6 }, by decide +kernel⟩
theorem wit_ArraysComputeTiles_wait : (promo1 true).running ChainBuf.empty true = .wait := by decide
theorem wit_ArraysComputeTiles_drain : ∃ (s : State) (d : Drain), s.atWork 63 = some ((7, 0), stageChart 0, pos0) ∧
    (s.clusters.get 63).drain = some d ∧ 128 ≤ d.rows.length ∧ epiDest (stageChart 0).epi = false ∧
    (stageChart 0).writesBack 2 = true :=
  ⟨working fun y => { y with drain := some ⟨0, 0, ⟨0, 0, 0, 0, 1, 1, 1⟩, List.replicate 128 [], [], none, false, false⟩ },
    ⟨0, 0, ⟨0, 0, 0, 0, 1, 1, 1⟩, List.replicate 128 [], [], none, false, false⟩, by decide +kernel, by decide +kernel,
    by decide +kernel, by decide, by decide⟩
theorem wit_ArraysComputeTiles_abort : ∃ s : State, (s.clusters.get 63).inst = some (7, 0) ∧
    (s.clusters.get 63).pos = some pos0 ∧ (s.inst 7 0).chart = some (stageChart 0) ∧ s.faultDue 63 = some (0, 1) ∧
    s.alarmed = false ∧ s.clusterOn 63 = true ∧ (s.clusters.get 63).doneWith 0 = false ∧
    (∀ p ∈ abortReach (stageChart 0) s.pk.id.toNat pos0 true, p.chiplet = s.pk.id.toNat →
      fin 63 (8 * p.region + p.cluster) ≠ 63) ∧ (s.inst 7 0).st = .running ∧ (s.inst 7 0).faulting = 0 :=
  ⟨working fun y => { y with tile := some (tile1 5 false), issued := [], fault := some (0, 1) }, by decide +kernel⟩
theorem wit_ArraysComputeTiles_none : up.atWork 0 = none ∧ up.faultDue 0 = none := by decide +kernel

/-- A program of two passes and no output, register 0 carried. -/
def vprog1 : VProg := { VProg.ofBytes (List.replicate 64 0) with npass := 2, carry := [8, 0], auxEn := false, sideEn := false, constSrc := 0 }
/-- `staging` whose chart has that program. -/
def chained (f : ClusterSt → ClusterSt) : State :=
  (working f).onInst 7 0 fun i => { i with chart := some { stageChart 0 with vprog := some vprog1 } }
/-- A tile of the queue. -/
def queue1 : QEntry := ⟨0, 0, ⟨0, 0, 0, 0, 1, 1, 1⟩, .t16, [], false, false, false, none, false, []⟩
/-- That tile in pass `n`. -/
def inChain (n : Nat) (started : Bool) : VcTile := ⟨queue1, n, started, [[0]], [], 0, false, false, false⟩
theorem wit_PassesAndRunsEnd : ∃ (s : State) (ch : Chart), s.chainAtWork 63 = some ((7, 0), ch, pos0, vprog1) ∧
    (s.clusters.get 63).vc = none ∧ (s.clusters.get 63).queue = [queue1] ∧
    s.inputsIn (7, 0) ch vprog1 63 queue1.index = true ∧ (s.clusters.get 63).outsFree queue1.slot = true :=
  ⟨chained fun y => { y with queue := [queue1] }, { stageChart 0 with vprog := some vprog1 }, by decide +kernel⟩
theorem wit_PassesAndRunsEnd_pass : ∃ (s : State) (ch : Chart),
    s.chainAtWork 63 = some ((7, 0), ch, pos0, vprog1) ∧ (s.clusters.get 63).vc = some (inChain 0 true) ∧
    (inChain 0 true).pass + 1 < vprog1.npass ∧ (inChain 0 true).finish[0]? = some [0] ∧
    testBit (vprog1.carry.getD (inChain 0 true).pass 0) 3 = true ∧ vprog1.npass ≤ (inChain 1 true).pass + 1 ∧
    (inChain 1 false).started = false :=
  ⟨chained fun y => { y with vc := some (inChain 0 true) }, { stageChart 0 with vprog := some vprog1 }, by decide +kernel⟩
theorem wit_PassesAndRunsEnd_idle : up.chainAtWork 0 = none := by decide +kernel
/-- Instance 0 of region 7 with nothing left to do. -/
def ending (st : InstState) (f : BitVec 4) (redo : List Nat) : State :=
  (bound 0 st).onInst 7 0 fun i =>
    { i with faulting := f, groups := [Group.fresh 511 redo], startRec := some ⟨0, 0, 0x8000000000000, 0⟩ }
theorem wit_PassesAndRunsEnd_drained : ((ending .draining 0 []).inst 7 0).chart = some chart0 ∧
    RunOver (ending .draining 0 []) 7 0 chart0 none ∧ ownSlot 0 = true ∧ ((ending .draining 0 []).inst 7 0).stopRec = none ∧
    ((ending .draining 0 []).inst 7 0).statAddr = 0 := by unfold RunOver; decide +kernel
theorem wit_PassesAndRunsEnd_faulted : FaultOver (ending .running 4 [4]) 7 0 chart0 none false ∧
    ∀ g ∈ ((ending .running 4 [4]).inst 7 0).groups, g.g < 512 := by unfold FaultOver; decide +kernel
theorem wit_PassesAndRunsEnd_far : ∃ s : State, RunOver s 7 35 chart0 none ∧ ownSlot 35 = false :=
  ⟨(boundAt 35 0 .draining).onInst 7 35 fun i => { i with groups := [] }, by unfold RunOver; decide +kernel⟩
theorem wit_PassesAndRunsEnd_none : (up.regions.get 0).preemptHolds = [] ∧ ¬ RunOver up 7 0 chart0 none ∧
    ¬ FaultOver up 7 0 chart0 none false := by unfold RunOver FaultOver; decide +kernel
/-- A PREEMPT BIND for instance 1 of region 7, held by its ring, that has stopped instance 0. -/
def preempting : State :=
  (bound 0 .stopped).onRing 7 3 fun q =>
    { q with hold := some (⟨3, 0, 0, 0x8000000000000⟩, [1, 1, 2] ++ List.replicate 61 0), waits := [(7, 0)] }
theorem wit_PassesAndRunsEnd_preempt : ∃ (f : RecRef) (bs : List Byte) (xs : List (Region × SlotNo)),
    (preempting.regions.get 7).preemptHolds.find? (fun x => x.2.2.2.all fun y =>
      (preempting.inst y.1 y.2).st != .running && (preempting.inst y.1 y.2).st != .draining) = some (3, f, bs, xs) ∧
    preempting.regionActs 7 = true ∧ (7, recInst bs) ∉ xs ∧ (7, (0 : SlotNo)) ∈ xs ∧ Env.quiet.away ≠ some true ∧
    (preempting.inst 7 0).st = .stopped :=
  ⟨⟨3, 0, 0, 0x8000000000000⟩, [1, 1, 2] ++ List.replicate 61 0, [(7, 0)], by decide +kernel, by decide +kernel, by decide, by decide,
    by decide, by decide +kernel⟩
theorem wit_PassesAndRunsEnd_named : (0 : SlotNo) = (bound 0 .stopped).farSlot ⟨0, 0, 0, [], 0, [], [], [], []⟩ ∧
    ((bound 0 .stopped).inst 7 0).st = .stopped ∧ (bound 0 .stopped).alarmed = false ∧
    ((bound 0 .running).inst 7 0).st = .running := by decide

/-! ## Ill-formed commands are refused by the checks -/

/-- A request of `n` bytes at lagoon offset `a`. -/
def req (n a : Nat) : Req := ask a n

theorem test_wf_len_zero : (Instr.rd 2 (req 0 0) Env.quiet).wf = false := by decide
theorem test_wf_len_large : (Instr.rd 2 (req 257 0) Env.quiet).wf = false := by decide
theorem test_wf_span : (Instr.rd 2 (req 8 252) Env.quiet).wf = false := by decide
theorem test_wf_short : (Instr.wrs 2 (req 9 0) Env.quiet).wf = false := by decide
theorem test_wf_atom_length : (Instr.atomAdd 2 (req 4 0) Env.quiet).wf = false := by decide
theorem test_wf_doorbell : (Instr.dbell 2 (req 7 0) Env.quiet).wf = false := by decide
theorem test_wf_flit : (Instr.flitReceived 0 [0] Env.quiet).wf = false := by decide
theorem test_wf_map : (Instr.mapMessageAccepted 0 [0] Env.quiet).wf = false := by decide
theorem test_wf_stack_address : (Instr.mrd 0 32 64).wf = false := by decide
theorem test_wf_stack_length : (Instr.mwr 1 0 [0]).wf = false := by decide
theorem test_wf_stack_block : (Instr.mrd 0 192 128).wf = false := by decide
theorem test_wf_payload : (Instr.payloadFlit 2 0 [0]).wf = false := by decide
theorem test_wf_sample : (Instr.thermalSample [] []).wf = false := by decide
theorem test_wf_access_offset : (Instr.readToClear .family 64 2 false Env.quiet).wf = false := by decide
theorem test_wf_access_wide : (Instr.registerWrite .family 64 4 true 0 Env.quiet).wf = false := by decide
theorem test_wf_access_block : (Instr.registerWrite .family 256 0 false 0 Env.quiet).wf = false := by decide
theorem test_wf_tap_domain : (Instr.tapInstruction (.halt 72) Env.quiet).wf = false := by decide
theorem test_wf_tap_block : (Instr.tapInstruction (.lagoonRead 16777216) Env.quiet).wf = false := by decide
theorem test_wf_good : (Instr.rd 2 (req 256 0) Env.quiet).wf = true ∧ (Instr.mrd 1 192 64).wf = true := by decide

/-! ## Worked examples of the specification -/

/-- 02, zero points: code 0x8 of N4 with z = 7 enters as -15, T8 code 0xDF. -/
theorem test_zero_point : (expandZp .n4 8 7).cmp (Fmt.value .t8 0xDF) = some .eq := by decide
/-- 02, tables: entry 8 of table min(40 / G, T - 1). -/
theorem test_table_index : tableIndex 4 16 40 = 2 ∧ tableIndex 2 16 40 = 1 := by decide
/-- 02, rounding to odd: 1 + 2^-4 + 2^-60 is written as T8 code 0x41. -/
theorem test_round_to_odd : (epiElement ⟨false, false, .none, .t8⟩ ⟨none, none, none⟩
    (IVal.ofX 80 .ne (.fin false (2 ^ 60 + 2 ^ 56 + 1) (-60)))).code = 0x41 := by decide
/-- 02, out of range: 236, -236 and 232 written as T8 by the epilogue. -/
theorem test_epilogue_range : ([236, -236, 232].map fun i => epiElement ⟨false, false, .none, .t8⟩ ⟨none, none, none⟩
    (IVal.ofX 80 .ne (XVal.ofInt i))).map (fun x => (x.code, x.nonfinite)) =
    [(0x7F, true), (0x7F, true), (0x7E, false)] := by decide
/-- 02, out of range: the same through F32 and an explicit convert. -/
theorem test_convert_range : ([236, -236, 232].map fun i => cvt .f32 .t8 false .ne false (f32Of (XVal.ofInt i))).map
    (fun x => (x.code, x.range)) = [(0x7E, true), (0xFE, true), (0x7E, false)] := by decide
/-- 02: 2^31 - 2^21 + 2^7 into T16 towards +infinity and towards zero. -/
theorem test_convert_directed :
    (cvt .f32 .t16 true .up false (f32Of (XVal.ofInt (2 ^ 31 - 2 ^ 21 + 2 ^ 7)))).range = true ∧
    (Fmt.value .t16 (cvt .f32 .t16 true .up false (f32Of (XVal.ofInt (2 ^ 31 - 2 ^ 21 + 2 ^ 7)))).code) = .inf false ∧
    (cvt .f32 .t16 true .tz false (f32Of (XVal.ofInt (2 ^ 31 - 2 ^ 21 + 2 ^ 7)))).range = false ∧
    (Fmt.value .t16 (cvt .f32 .t16 true .tz false (f32Of (XVal.ofInt (2 ^ 31 - 2 ^ 21 + 2 ^ 7)))).code).cmp
      (XVal.ofInt (2 ^ 31 - 2 ^ 21)) = some .eq := by decide
/-- 03, groups: the total of the 64 products is 35 x 2^-21. -/
theorem test_group_window : ((chunkOf ((List.range 64).map fun k =>
    match k with
    | 0 => .fin false 1 40 | 1 => .fin false 5 (-18) | 2 => .fin false 3 (-21) | 31 => .fin true 1 40
    | 40 => .fin false 3 (-21) | _ => XVal.zero)).toX 48).cmp (.fin false 35 (-21)) = some .eq := by decide
/-- 03, chains: TS2 with K = 10,000. -/
theorem test_chain_slices : kPad 10000 = 10016 ∧ sliceLen 10016 4 = 2528 ∧ sliceStart 10016 4 2 = 5056 ∧
    sliceEnd 10016 4 3 = 10016 := by decide
/-- 03, slices: a = 1 + 2^-12 + 2^-23. -/
theorem test_slices : ([1, 2, 3].map fun i => (slice i (.fin false (2 ^ 23 + 2 ^ 11 + 1) (-23))).cmp
    (.fin false 1 (match i with
      | 1 => 0
      | 2 => -12
      | _ => -23))) = [some .eq, some .eq, some .eq] := by decide
/-- 04: the first non-finite position that the record keeps. -/
theorem test_nonfinite_order : nfMin (40, 3, 137) (40, 128, 0) = (40, 3, 137) ∧
    nfMin (12, 200, 1) (40, 3, 137) = (12, 200, 1) := by decide
/-- 07: two-way interleave with 256-byte granules. -/
theorem test_interleave : { State.reset with proto := { State.reset.proto with stackWays := 0, stackGran := 0 } }.stackPlace
    0x123456780 = (1, 0x91A2B380) := by decide
/-- 11: the redo list of the four groups. -/
theorem test_redo_list : ([⟨0, false, some 20, none, [], [], []⟩, ⟨1, false, some 21, none, [], [], [17]⟩,
    ⟨2, false, some 22, none, [], [], []⟩, ⟨3, false, some 23, none, [], [], []⟩] : List Group).flatMap Group.owed =
    [20, 17, 21, 22, 23] := by decide

/-! ## Single commands -/

/-- R239: a context number of region 1 is out of range for region 0. -/
theorem test_fy_start_range : (match exec (.fyStart 0 0x8000 Env.quiet) up with
    | .next t => ((t.regions.get 0).fy.queue, (t.regions.get 0).flt.lost)
    | _ => ([], 0)) = ([], 1) := by decide
/-- R227: LG_CLEAR clears the poison bit of its own slice's block only. -/
theorem test_lg_clear : (match exec (.lgClear 0 0x40) { up with mem := { up.mem with poison := [1, 2] } } with
    | .next t => t.mem.poison
    | _ => []) = [2] := by decide
/-- R368: a fault ring reads at most what was written. -/
theorem test_flt_rd : (match exec (.cmdFltRd 0 5) up with
    | .next t => (t.regions.get 0).flt.rd
    | _ => 1) = 0 := by decide
/-- R206: a DRAW at the limit gives the sentinel. -/
theorem test_draw_limit : (up.draw 0).2 = 2 ^ 64 - 1 := by decide
/-- The queue is first in, first out. -/
theorem test_queue : (match step { up with pending := [.cmdMboxBell 0 7, .cmdMboxBell 0 9] } with
    | .next t => (t.pending, (t.regions.get 0).events)
    | _ => ([], [])) = ([.cmdMboxBell 0 9], [7]) := by decide

end Sys2Proof.Tests
end

section
/-! PROOF. Accesses to control space: what an aligned read returns and clears, and what a write sets (R13, R220). -/

namespace Sys2Proof.Machine

/-! ## Fields and bytes (R11) -/

theorem bytesToNat_natToBytes (n v : Nat) : bytesToNat (natToBytes n v) = v % 256 ^ n := by
  induction n generalizing v with
  | zero => simp [natToBytes, bytesToNat, Nat.mod_one]
  | succ n ih => rw [natToBytes, bytesToNat, ih, Nat.pow_succ', Nat.mod_mul, BitVec.toNat_ofNat]

theorem bytesToNat_natToBytes_field (x lo n : Nat) :
    bytesToNat (natToBytes n (field x lo (8 * n))) = field x lo (8 * n) := by
  rw [bytesToNat_natToBytes, Nat.mod_eq_of_lt]
  have h : (2 : Nat) ^ (8 * n) = 256 ^ n := Nat.pow_mul 2 8 n
  exact h ▸ Nat.mod_lt _ (Nat.two_pow_pos _)

theorem field_two_low (x y : Nat) : field (two x y) 0 32 = x % 2 ^ 32 := by
  simp only [field, two, place]; omega

theorem field_two_high (x y : Nat) : field (two x y) 32 32 = y % 2 ^ 32 := by
  simp only [field, two, place]; omega

theorem halves_both {v : Nat} (old : Nat) (h : v < 2 ^ 64) : halves old v true true = v := by
  simp only [halves, two, place, if_true]; omega

theorem testBit_eq_testBit (x i : Nat) : testBit x i = x.testBit i := by
  rw [testBit, Nat.testBit_eq_decide_div_mod_eq]; rfl

theorem testBit_toNat (v : W64) (i : Nat) : testBit v.toNat i = v.getLsbD i := testBit_eq_testBit _ _

theorem testBit_toNat_low (v : W64) {i : Nat} (h : i < 32) : testBit (v.toNat % 2 ^ 32) i = v.getLsbD i := by
  rw [testBit_eq_testBit, Nat.testBit_mod_two_pow, decide_eq_true h, Bool.true_and, BitVec.getLsbD]

/-- A field of the low half of a word, whichever wider field it is cut from. -/
theorem ofNat_field_low (v : W64) {lo n : Nat} (h : lo + n ≤ 32) :
    BitVec.ofNat n (field (v.toNat % 2 ^ 32) lo n) = v.extractLsb' lo n := by
  apply BitVec.eq_of_getLsbD_eq
  intro i hi
  rw [BitVec.getLsbD_ofNat, BitVec.getLsbD_extractLsb', field, Nat.testBit_mod_two_pow, Nat.testBit_div_two_pow,
    Nat.testBit_mod_two_pow]
  simp [hi, show lo + i < 32 by omega, Nat.add_comm, BitVec.getLsbD]

theorem ofNat_low (v : W64) {n : Nat} (h : n ≤ 32) : BitVec.ofNat n (v.toNat % 2 ^ 32) = v.extractLsb' 0 n := by
  rw [← ofNat_field_low v (by omega), field, Nat.pow_zero, Nat.div_one]
  exact BitVec.eq_of_toNat_eq (by simp only [BitVec.toNat_ofNat, Nat.mod_mod])

/-! ## Blocks and aligned offsets (R220, R221) -/

@[simp] theorem fin_self {n : Nat} (k : Fin (n + 1)) : fin n k.1 = k := Fin.ofNat_val_eq_self k

theorem fin_regionBlock (r : Region) : fin 7 (64 + r.1 - 64) = r := by simp

theorem regionBlock_bounds (r : Region) : ¬(64 + r.1 < 64) ∧ 64 + r.1 < 72 := by omega

/-- An access inside control space of a chiplet that is on is looked at. -/
theorem ctl_not_outside {s : State} (hs : s.power.st ≠ .off) {blk off : Nat} (hb : blk < 256) (ho : off < 65536) :
    ¬(s.power.st = .off ∨ 256 ≤ blk ∨ 65536 ≤ off) := by
  simp only [hs, false_or]; omega

/-- CMD_RING_STATE of ring `i` stands in the low half of its slot (R374). -/
theorem ringState_offset (i : RingNo) : (64 * i.1 + 0x20) / 8 * 8 = 64 * i.1 + 0x20 ∧
    ((64 * i.1 + 0x20) % 8 == 0) = true ∧ 64 * i.1 + 0x20 < 0x200 ∧ (64 * i.1 + 0x20) % 0x40 = 0x20 ∧
    fin 7 ((64 * i.1 + 0x20) / 0x40) = i := by
  have h : (64 * i.1 + 0x20) / 0x40 = i.1 := by omega
  refine ⟨by omega, ?_, by omega, by omega, by rw [h, fin_self]⟩
  rw [beq_iff_eq]; omega

/-! ## Region clocks (R379) -/

theorem State.wakeRegion_powerOnly (s : State) (r : Region) :
    s.wakeRegion r = { s with power := (s.wakeRegion r).power } := by
  simp only [State.wakeRegion]; (repeat' split) <;> rfl

theorem State.wakeCluster_powerOnly (s : State) (k : Nat) :
    s.wakeCluster k = { s with power := (s.wakeCluster k).power } := by
  simp only [State.wakeCluster]; split <;> rfl

/-! ## Reads (R13) -/

/-- The RC fields that a read of `n` bytes at offset `off` returns, cleared. -/
def State.cleared (s : State) (blk off n : Nat) : State :=
  s.clearOnRead blk (off / 8 * 8) (off % 8 == 0) (n == 8 || off % 8 == 4)

/-- The `n` bytes at an aligned offset of a control block, as a word. -/
def State.ctlWord (s : State) (blk off n : Nat) : W64 :=
  BitVec.ofNat 64 (field (s.ctlSlot blk (off / 8 * 8)) (if off % 8 == 0 then 0 else 32) (8 * n))

/-- An aligned read by an RQ-family initiator is carried out. -/
theorem exec_read_family (e : Env) {s : State} (hs : s.power.st ≠ .off) {blk off : Nat} {wide : Bool}
    (hb : blk < 256) (ho : off < 65536) (ha : ctlAligned off (if wide then 8 else 4) = true) :
    exec (.readToClear .family blk off wide e) s =
      .next (((⟨s, e⟩ : W).ctlRead blk off (if wide then 8 else 4)).1.s.emit
        (.value (BitVec.ofNat 64 (bytesToNat ((⟨s, e⟩ : W).ctlRead blk off (if wide then 8 else 4)).2)))) := by
  have h1 := ctl_not_outside hs hb ho
  change execReadToClear _ _ _ _ _ _ = _
  simp [execReadToClear, h1, ha, State.mayRead]

/-- What an initiator does not reach reads as 0 (R34, R433). -/
theorem exec_read_unreached (e : Env) {s : State} (hs : s.power.st ≠ .off) {by_ : Initiator} {blk off : Nat}
    {wide : Bool} (hb : blk < 256) (ho : off < 65536) (ha : ctlAligned off (if wide then 8 else 4) = true)
    (hm : s.mayRead by_ blk off = false) :
    exec (.readToClear by_ blk off wide e) s = .next (s.emit (.value 0)) := by
  have h1 := ctl_not_outside hs hb ho
  change execReadToClear _ _ _ _ _ _ = _
  simp [execReadToClear, h1, ha, hm]

/-- A read of a region's block clears, wakes the region, and returns the word (R13, R379). -/
theorem exec_read_region (e : Env) {s : State} (hs : s.power.st ≠ .off) (r : Region) {off : Nat} {wide : Bool}
    (ho : off < 65536) (ha : ctlAligned off (if wide then 8 else 4) = true) :
    exec (.readToClear .family (64 + r.1) off wide e) s =
      .next (((s.cleared (64 + r.1) off (if wide then 8 else 4)).wakeRegion r).emit
        (.value (s.ctlWord (64 + r.1) off (if wide then 8 else 4)))) := by
  rw [exec_read_family e hs (by omega) ho ha]
  have h1 : ¬(64 + r.1 = 77 ∧ 0x8000 ≤ off) := by omega
  obtain ⟨h2, h3⟩ := regionBlock_bounds r
  simp only [W.ctlRead, h1, h2, h3, if_true, if_false, fin_regionBlock, bytesToNat_natToBytes_field, W.on_s,
    State.cleared, State.ctlWord]

/-- A read above the regions' blocks clears and returns the word; the log window stands apart (R13, R449). -/
theorem exec_read_chiplet (e : Env) {s : State} (hs : s.power.st ≠ .off) {blk off : Nat} {wide : Bool}
    (hb : 72 ≤ blk) (hb' : blk < 256) (ho : off < 65536) (ha : ctlAligned off (if wide then 8 else 4) = true)
    (hlog : ¬(blk = 77 ∧ 0x8000 ≤ off)) :
    exec (.readToClear .family blk off wide e) s =
      .next ((s.cleared blk off (if wide then 8 else 4)).emit
        (.value (s.ctlWord blk off (if wide then 8 else 4)))) := by
  rw [exec_read_family e hs hb' ho ha]
  have h2 : ¬(blk < 64) := by omega
  have h3 : ¬(blk < 72) := by omega
  simp only [W.ctlRead, hlog, h2, h3, if_false, bytesToNat_natToBytes_field, W.on_s, State.cleared, State.ctlWord]

/-- The log window returns the bytes of the log (R449). -/
theorem exec_read_log (e : Env) {s : State} (hs : s.power.st ≠ .off) {off : Nat} {wide : Bool}
    (ho : off < 65536) (ha : ctlAligned off (if wide then 8 else 4) = true) (hopen : s.logOpen = true)
    (hwin : 0x8000 ≤ off)
    (hin : s.life.logWin.toNat * 0x8000 + (off - 0x8000) + (if wide then 8 else 4) ≤ s.life.logSize) :
    exec (.readToClear .family 77 off wide e) s =
      .next (s.emit (.value (BitVec.ofNat 64 (bytesToNat (logRead s.life.log
        (s.life.logWin.toNat * 0x8000 + (off - 0x8000)) (if wide then 8 else 4)))))) := by
  rw [exec_read_family e hs (by decide) ho ha]
  simp only [W.ctlRead, hwin, and_true, if_true, hopen, W.logWindow, hin]

/-! ## What a read clears -/

theorem State.cleared_ringState (s : State) (r : Region) (i : RingNo) :
    s.cleared (64 + r.1) (64 * i.1 + 0x20) 4 = s.onRing r i fun q => { q with rejects := 0 } := by
  obtain ⟨h8, hlo, ho, hm, hi⟩ := ringState_offset i
  have hb : 64 ≤ 64 + r.1 ∧ 64 + r.1 < 72 := by omega
  simp only [State.cleared, State.clearOnRead, h8, hlo, hi, hb, ho, hm, and_self, if_true, fin_regionBlock]

theorem State.cleared_fltLost (s : State) (r : Region) :
    s.cleared (64 + r.1) 0x4014 4 = s.onRegion r fun x => { x with flt := { x.flt with lost := 0 } } := by
  have hb : 64 ≤ 64 + r.1 ∧ 64 + r.1 < 72 := by omega
  simp [State.cleared, State.clearOnRead, hb]

theorem State.cleared_drops (s : State) (r : Region) :
    s.cleared (64 + r.1) 0x8010 8 = s.onFerry r fun y => { y with drops := 0 } := by
  have hb : 64 ≤ 64 + r.1 ∧ 64 + r.1 < 72 := by omega
  simp [State.cleared, State.clearOnRead, hb, clearHalves]

theorem State.cleared_lastRefused (s : State) :
    s.cleared 73 0x18 8 = { s with proto := { s.proto with lastRefused := LastRefused.reset } } := by
  have h : LastRefused.ofNat 0 = LastRefused.reset := by decide
  simp [State.cleared, State.clearOnRead, clearHalves, h]

theorem State.cleared_wakeCause (s : State) :
    s.cleared 75 0x810 4 = { s with ao := { s.ao with cause := 0 } } := by
  simp [State.cleared, State.clearOnRead]

theorem State.cleared_tagPeak (s : State) :
    s.cleared 78 0x18 4 = { s with proto := { s.proto with tagPeak := 0 } } := by
  simp [State.cleared, State.clearOnRead]

/-- Outside the regions only HG_LAST_REFUSED, AO_WAKE_CAUSE and FY_TAG_PEAK clear. -/
theorem State.cleared_none (s : State) {blk off : Nat} (n : Nat) (hb : 72 ≤ blk) (h73 : ¬(blk = 73 ∧ off / 8 = 3))
    (h75 : ¬(blk = 75 ∧ off / 8 = 0x102)) (h78 : ¬(blk = 78 ∧ off / 8 = 3)) : s.cleared blk off n = s := by
  unfold State.cleared State.clearOnRead
  rw [if_neg (by omega), if_neg (by omega), if_neg (fun h => by omega), if_neg (fun h => by omega)]

/-! ## What a read returns -/

theorem State.ringState_lt (s : State) (q : Ring) : s.ringState q < 6 := by
  unfold State.ringState; (repeat' split) <;> omega

theorem State.ctlSlot_region (s : State) (r : Region) (o : Nat) : s.ctlSlot (64 + r.1) o = s.regionSlot r o := by
  obtain ⟨h2, h3⟩ := regionBlock_bounds r
  simp only [State.ctlSlot, h2, h3, if_true, if_false, fin_regionBlock]

theorem State.ctlWord_ringState (s : State) (r : Region) (i : RingNo) :
    s.ctlWord (64 + r.1) (64 * i.1 + 0x20) 4 =
      BitVec.ofNat 64 ((s.ring r i).rejects.toNat * 65536 + s.ringState (s.ring r i)) := by
  obtain ⟨h8, hlo, ho, hm, hi⟩ := ringState_offset i
  have hst := s.ringState_lt (s.ring r i)
  have hrej := (s.ring r i).rejects.isLt
  simp only [State.ctlWord, h8, hlo, if_true, State.ctlSlot_region, State.regionSlot, ho, State.ringSlot, hi, hm]
  rw [field_two_low]
  congr 1
  simp only [place]
  omega

theorem State.ctlWord_fltLost (s : State) (r : Region) :
    s.ctlWord (64 + r.1) 0x4014 4 = (s.regions.get r).flt.lost.setWidth 64 := by
  have h : s.ctlWord (64 + r.1) 0x4014 4 = BitVec.ofNat 64 (field (s.ctlSlot (64 + r.1) 0x4010) 32 32) := rfl
  have hs : s.regionSlot r 0x4010 = two (s.regions.get r).flt.rd.toNat (s.regions.get r).flt.lost.toNat := rfl
  rw [h, State.ctlSlot_region, hs, field_two_high, Nat.mod_eq_of_lt (BitVec.isLt _), BitVec.ofNat_toNat]

theorem State.ctlWord_drops (s : State) (r : Region) :
    s.ctlWord (64 + r.1) 0x8010 8 = (s.regions.get r).fy.drops := by
  have h : s.ctlWord (64 + r.1) 0x8010 8 = BitVec.ofNat 64 (field (s.ctlSlot (64 + r.1) 0x8010) 0 64) := rfl
  have hs : s.regionSlot r 0x8010 = (s.regions.get r).fy.drops.toNat := rfl
  rw [h, State.ctlSlot_region, hs, field, Nat.pow_zero, Nat.div_one, Nat.mod_eq_of_lt (BitVec.isLt _),
    BitVec.ofNat_toNat, BitVec.setWidth_eq]

theorem State.ctlWord_lastRefused (s : State) :
    s.ctlWord 73 0x18 8 = BitVec.ofNat 64 s.proto.lastRefused.toNat := by
  have h : s.ctlWord 73 0x18 8 = BitVec.ofNat 64 (field s.proto.lastRefused.toNat 0 64) := rfl
  rw [h]
  apply BitVec.eq_of_toNat_eq
  simp [field]

theorem State.ctlWord_wakeCause (s : State) : s.ctlWord 75 0x810 4 = s.ao.cause.setWidth 64 := by
  have h : s.ctlWord 75 0x810 4 = BitVec.ofNat 64 (field (two s.ao.cause.toNat
    (place (bit s.pk.aoTrimmed) 16 1 + s.ao.trim.toNat)) 0 32) := rfl
  rw [h, field_two_low, Nat.mod_eq_of_lt (by omega), BitVec.ofNat_toNat]

theorem State.ctlWord_tagPeak (s : State) : s.ctlWord 78 0x18 4 = s.proto.tagPeak.setWidth 64 := by
  have h : s.ctlWord 78 0x18 4 = BitVec.ofNat 64 (field (two s.proto.tagPeak.toNat 0) 0 32) := rfl
  rw [h, field_two_low, Nat.mod_eq_of_lt (by omega), BitVec.ofNat_toNat]

/-- Settles O48: every read is its clearing, its value and the wake of a region; the rest is which slot clears
what. -/
theorem readsClearOnlyCountsThatClear : Obligations.ReadsClearOnlyCountsThatClear := by
  unfold Obligations.ReadsClearOnlyCountsThatClear
  intro e s hs
  refine ⟨?ring, ?region, ?refused, ?cause, ?peak, ?rest⟩
  case ring =>
    intro r i
    rw [exec_read_region e hs r (by omega) (by simp [ctlAligned]; omega)]
    simp only [Bool.false_eq_true, if_false, State.cleared_ringState, State.ctlWord_ringState]
  case region =>
    intro r
    rw [exec_read_region e hs r (by decide) (by decide), exec_read_region e hs r (by decide) (by decide),
      if_neg (by decide), if_pos rfl, State.cleared_fltLost, State.ctlWord_fltLost, State.cleared_drops,
      State.ctlWord_drops]
    exact ⟨rfl, rfl⟩
  case refused =>
    rw [exec_read_chiplet e hs (by decide) (by decide) (by decide) (by decide) (by decide), if_pos rfl,
      State.cleared_lastRefused, State.ctlWord_lastRefused]
  case cause =>
    rw [exec_read_chiplet e hs (by decide) (by decide) (by decide) (by decide) (by decide), if_neg (by decide),
      State.cleared_wakeCause, State.ctlWord_wakeCause]
  case peak =>
    rw [exec_read_chiplet e hs (by decide) (by decide) (by decide) (by decide) (by decide), if_neg (by decide),
      State.cleared_tagPeak, State.ctlWord_tagPeak]
  case rest =>
    intro blk off wide ho ha
    refine ⟨fun hb hb' h73 h75 h78 hlog => ?_, fun a n hopen hwin hn haddr hin => ?_, fun hm hb => ?_⟩
    · rw [exec_read_chiplet e hs hb (by omega) ho ha hlog, State.cleared_none s _ hb h73 h75 h78]
      exact ⟨_, rfl⟩
    · rw [haddr, hn] at hin
      rw [haddr, hn]
      exact exec_read_log e hs ho ha hopen hwin hin
    · exact exec_read_unreached e hs hb ho ha (by simp [State.mayRead, hm])

/-! ## Writes (R13) -/

/-- A write to a block above the clusters' is ignored, or writes the halves of its slot that it covers. -/
theorem exec_write_cases (by_ : Initiator) {blk off : Nat} {wide : Bool} (v : W64) (e : Env) (s : State)
    (hb : 64 ≤ blk) (ha : ctlAligned off (if wide then 8 else 4) = true) :
    exec (.registerWrite by_ blk off wide v e) s = .next s ∨
      ∃ x lo hi, exec (.registerWrite by_ blk off wide v e) s =
        .next ((⟨s, e⟩ : W).slotWrite blk (off / 8 * 8) x lo hi).s := by
  change execRegisterWrite _ _ _ _ _ _ _ = _ ∨ ∃ x lo hi, execRegisterWrite _ _ _ _ _ _ _ = _
  have hk : ¬(writesClusters by_ = true ∧ blk < 64) := by omega
  simp only [execRegisterWrite, ha, hk, Bool.not_true, Bool.false_eq_true, if_false]
  split
  · exact .inl rfl
  · split
    · exact .inl rfl
    · exact .inr ⟨_, _, _, rfl⟩

/-- A write whose slot takes nothing changes nothing, whoever writes. -/
theorem exec_write_of_slotWrite_kept (by_ : Initiator) {blk off : Nat} {wide : Bool} (v : W64) {e : Env} {s : State}
    (hb : 64 ≤ blk) (ha : ctlAligned off (if wide then 8 else 4) = true)
    (hk : ∀ x lo hi, ((⟨s, e⟩ : W).slotWrite blk (off / 8 * 8) x lo hi).s = s) :
    exec (.registerWrite by_ blk off wide v e) s = .next s := by
  obtain h | ⟨x, lo, hi, h⟩ := exec_write_cases by_ v e s hb ha
  · exact h
  · rw [h, hk]

/-- What an initiator may not write stays (R34, R396, R423, R433, R449). -/
theorem exec_write_unreached (by_ : Initiator) {blk off : Nat} {wide : Bool} (v : W64) (e : Env) {s : State}
    (ha : ctlAligned off (if wide then 8 else 4) = true) (hm : s.mayWrite by_ blk off = false) :
    exec (.registerWrite by_ blk off wide v e) s = .next s := by
  change execRegisterWrite _ _ _ _ _ _ _ = _
  simp only [execRegisterWrite, ha, hm, Bool.not_true, Bool.not_false, Bool.false_eq_true, if_false, if_true, ite_self]

/-- An aligned write by an RQ-family initiator is carried out. -/
theorem exec_write_family {blk off : Nat} (wide : Bool) (v : W64) (e : Env) {s : State} (hs : s.power.st ≠ .off)
    (hb : blk < 256) (ho : off < 65536) (ha : ctlAligned off (if wide then 8 else 4) = true) :
    exec (.registerWrite .family blk off wide v e) s =
      .next ((⟨s, e⟩ : W).ctlWrite blk off (if wide then 8 else 4) (if wide then v.toNat else v.toNat % 2 ^ 32)).s := by
  have h1 := ctl_not_outside hs hb ho
  change execRegisterWrite _ _ _ _ _ _ _ = _
  simp [execRegisterWrite, h1, ha, State.mayWrite, writesClusters]

/-- A 4-byte write at the low half of a slot by an RQ-family initiator. -/
theorem exec_write_low {blk off : Nat} (v : W64) (e : Env) {s : State} (hs : s.power.st ≠ .off) (hb : blk < 256)
    (ho : off < 65536) (h8 : off % 8 = 0) :
    exec (.registerWrite .family blk off false v e) s =
      .next ((⟨s, e⟩ : W).slotWrite blk off (v.toNat % 2 ^ 32) true false).s := by
  rw [exec_write_family false v e hs hb ho (by simp [ctlAligned]; omega)]
  have h : off / 8 * 8 = off := by omega
  simp [W.ctlWrite, h8, h]

/-- An 8-byte write of a slot by an RQ-family initiator. -/
theorem exec_write_wide {blk off : Nat} (v : W64) (e : Env) {s : State} (hs : s.power.st ≠ .off) (hb : blk < 256)
    (ho : off < 65536) (h8 : off % 8 = 0) :
    exec (.registerWrite .family blk off true v e) s =
      .next ((⟨s, e⟩ : W).slotWrite blk off v.toNat true true).s := by
  rw [exec_write_family true v e hs hb ho (by simp [ctlAligned]; omega)]
  have h : off / 8 * 8 = off := by omega
  simp [W.ctlWrite, h8, h]

/-- A misaligned write is dropped, and its record lost where the fault ring takes none (R220, R368). -/
theorem exec_write_misaligned (by_ : Initiator) {blk off : Nat} {wide : Bool} (v : W64) (e : Env) {s : State}
    (hs : s.power.st ≠ .off) (hb : blk < 256) (ho : off < 65536)
    (ha : ctlAligned off (if wide then 8 else 4) = false) (hf : (s.regions.get (initRegion by_)).flt.en = false) :
    exec (.registerWrite by_ blk off wide v e) s = .next (s.faultLost (initRegion by_)) := by
  have h1 := ctl_not_outside hs hb ho
  change execRegisterWrite _ _ _ _ _ _ _ = _
  simp [execRegisterWrite, h1, ha, W.ctlReject, W.accessFault, W.fault, State.unit, hf]

/-! ## What the slots take -/

theorem W.slotWrite_region (w : W) (r : Region) (o v : Nat) (lo hi : Bool) :
    w.slotWrite (64 + r.1) o v lo hi = (w.on (·.wakeRegion r)).regionWrite r o v lo hi := by
  obtain ⟨h2, h3⟩ := regionBlock_bounds r
  simp only [W.slotWrite, h2, h3, if_true, if_false, fin_regionBlock]

/-- Only the upper half of PK_ASSIGN's slot takes a write among the PK_ registers (R352). -/
theorem W.slotWrite_pk_kept (w : W) {o : Nat} (v : Nat) (lo hi : Bool) (ho : o ≠ 0x18) :
    w.slotWrite 74 o v lo hi = w := by
  simp [W.slotWrite, ho]

section
variable {w : W} (v : Nat) (lo hi : Bool) (h : w.s.startUp = false)
include h

/-! RWL fields in operation (R13). -/

theorem W.slotWrite_cw_locked (o : Nat) : w.slotWrite 72 o v lo hi = w := by simp [W.slotWrite, h]

theorem W.slotWrite_hg_locked (o : Nat) : (w.slotWrite 73 o v lo hi).s = w.s := by
  simp [W.slotWrite, State.hgWrite, h]

theorem W.slotWrite_pwCtrl_locked : w.slotWrite 75 0 v lo hi = w := by simp [W.slotWrite, W.pwWrite, h]

theorem W.slotWrite_eraseMask_locked : w.slotWrite 76 0 v lo hi = w := by simp [W.slotWrite, W.secWrite, h]

theorem W.slotWrite_sn_locked (o : Nat) : (w.slotWrite 78 o v lo hi).s = w.s := by
  simp [W.slotWrite, State.snWrite, h]

theorem W.regionWrite_tagCap_locked (r : Region) : w.regionWrite r 0x8008 v lo hi = w := by
  simp [W.regionWrite, h]

theorem W.regionWrite_scrub_locked (r : Region) : w.regionWrite r 0x8800 v lo hi = w := by
  simp [W.regionWrite, h]

end

section
variable {w : W} (v : Nat) (hi : Bool) (h : w.s.startUp = true)
include h

/-! RWL fields in start-up (R13). -/

theorem W.slotWrite_pwCtrl : w.slotWrite 75 0 v true hi = w.on (·.onPower fun p =>
    { p with slackDelay := BitVec.ofNat 8 (field v 16 8), clusterDelay := BitVec.ofNat 8 (field v 8 8) }) := by
  simp [W.slotWrite, W.pwWrite, h]

theorem W.slotWrite_replayTo : w.slotWrite 72 0 v true hi = w.on fun s =>
    { s with link := { s.link with replayTo := BitVec.ofNat 16 v } } := by
  simp [W.slotWrite, h]

theorem W.slotWrite_stackMap : w.slotWrite 78 0 v true hi = w.on fun s =>
    { s with proto := { s.proto with stackWays := BitVec.ofNat 2 (field v 6 2), stackGran := BitVec.ofNat 4 v } } := by
  simp [W.slotWrite, State.snWrite, h, W.on]

theorem W.slotWrite_defTags : w.slotWrite 78 0x10 v true hi = w.on fun s =>
    { s with proto := { s.proto with defTags := BitVec.ofNat 8 v } } := by
  simp [W.slotWrite, State.snWrite, h, W.on]

theorem W.regionWrite_tagCap (r : Region) : w.regionWrite r 0x8008 v true hi =
    w.on (·.onFerry r fun y => { y with tagCap := BitVec.ofNat 15 v }) := by
  simp [W.regionWrite, h]

theorem W.regionWrite_scrub (r : Region) : w.regionWrite r 0x8800 v true hi =
    w.on (·.onFerry r fun y => { y with scrubEn := testBit v 31, scrubPeriod := BitVec.ofNat 16 v }) := by
  simp [W.regionWrite, h]

end

theorem W.slotWrite_wakeTimer (w : W) (v : W64) : w.slotWrite 75 0x808 v.toNat true true = w.on fun s =>
    { s with ao := { s.ao with timerEn := v.getLsbD 63, timer := v.extractLsb' 0 48 } } := by
  simp [W.slotWrite, W.pwWrite, halves_both _ v.isLt, testBit_toNat,
    BitVec.setWidth_eq_extractLsb' (show 48 ≤ 64 by decide)]

/-- A write to a cluster's block that is not its region controller's starts at most the cluster's clock
(R148, R377). -/
theorem W.slotWrite_cluster (w : W) {blk : Nat} (hb : blk < 64) (o v : Nat) (lo hi : Bool) :
    ∃ p, (w.slotWrite blk o v lo hi).s = { w.s with power := p } := by
  simp only [W.slotWrite, hb, if_true]
  split
  · exact ⟨_, State.wakeCluster_powerOnly _ _⟩
  · exact ⟨_, rfl⟩

@[simp] theorem State.wakeRegion_startUp (s : State) (r : Region) : (s.wakeRegion r).startUp = s.startUp := by
  simp only [State.startUp, State.wakeRegion_still]

/-- A region controller's write to the block of a present cluster (R148, R183). -/
theorem exec_write_controller (r : Region) {k : Fin 64} (v : W64) (e : Env) {s : State} (hs : s.power.st ≠ .off)
    (hp : s.present (k.1 / 8) (k.1 % 8) = true) :
    exec (.registerWrite (.controller r) k.1 0 false v e) s =
      .next ((s.clusterWrite k 0 v.toNat true false).wakeCluster k.1) := by
  have h1 := ctl_not_outside hs (show k.1 < 256 by omega) (show 0 < 65536 by omega)
  change execRegisterWrite _ _ _ _ _ _ _ = _
  rw [execRegisterWrite, if_neg h1]
  simp [ctlAligned, State.mayWrite, writesClusters, hp]

theorem State.clusterWrite_mode (s : State) (k : Fin 64) (v : W64) :
    s.clusterWrite k 0 v.toNat true false =
      s.onCluster k fun y => { y with mode := v.extractLsb' 0 32 &&& 0x3FFF3FF0 } := by
  simp [State.clusterWrite, BitVec.setWidth_eq_extractLsb' (show 32 ≤ 64 by decide)]

/-- Settles O49: the slot of a locked field keeps the state, whoever writes; a region's block starts at most
the region's clock. -/
theorem settingsAreLockedInOperation : Obligations.SettingsAreLockedInOperation := by
  unfold Obligations.SettingsAreLockedInOperation
  intro by_ off wide v e s _ ha
  refine ⟨fun h3 => ?_, fun hrun => ?_⟩
  · exact exec_write_of_slotWrite_kept by_ v (by decide) ha fun x lo hi => by
      rw [W.slotWrite_pk_kept _ x lo hi (by omega)]
  have hl : (⟨s, e⟩ : W).s.startUp = false := by simp [State.startUp, hrun]
  have kept := fun blk (hb : 64 ≤ blk) =>
    exec_write_of_slotWrite_kept (blk := blk) (off := off) (e := e) (s := s) by_ v hb ha
  refine ⟨kept 73 (by decide) fun x lo hi => W.slotWrite_hg_locked x lo hi hl _,
    kept 72 (by decide) fun x lo hi => by rw [W.slotWrite_cw_locked x lo hi hl],
    kept 78 (by decide) fun x lo hi => W.slotWrite_sn_locked x lo hi hl _, fun h0 => ⟨?pw, ?sec⟩, fun r hr => ?region⟩
  case pw =>
    exact kept 75 (by decide) fun x lo hi => by rw [h0, Nat.zero_mul, W.slotWrite_pwCtrl_locked x lo hi hl]
  case sec =>
    exact kept 76 (by decide) fun x lo hi => by rw [h0, Nat.zero_mul, W.slotWrite_eraseMask_locked x lo hi hl]
  case region =>
    obtain h | ⟨x, lo, hi, h⟩ := exec_write_cases by_ v e s (blk := 64 + r.1) (by omega) ha
    · exact ⟨s, h, rfl⟩
    have hw : ((⟨s, e⟩ : W).on (·.wakeRegion r)).s.startUp = false := by simpa using hl
    refine ⟨s.wakeRegion r, ?_, State.wakeRegion_powerOnly s r⟩
    rw [h, W.slotWrite_region]
    obtain h | h := hr
    · rw [h, W.regionWrite_tagCap_locked x lo hi hw]; rfl
    · rw [h, W.regionWrite_scrub_locked x lo hi hw]; rfl

/-- Settles O50: a write of a field is what its slot takes; what no one may write reaches no slot. -/
theorem writesSetTheirFields : Obligations.WritesSetTheirFields := by
  unfold Obligations.WritesSetTheirFields
  intro v e s hs
  refine ⟨fun hrun => ?startUp, ?timer, fun k r hp => ?mode,
    fun blk off wide ho hb => ⟨fun ha => ?aligned, ?misaligned⟩⟩
  case startUp =>
    have hu : (⟨s, e⟩ : W).s.startUp = true := by simp [State.startUp, hrun]
    have low := fun {blk off : Nat} (hb : blk < 256) (ho : off < 65536) (h8 : off % 8 = 0) =>
      exec_write_low v e hs hb ho h8
    have hw := fun r : Region => show ((⟨s, e⟩ : W).on (·.wakeRegion r)).s.startUp = true by simpa using hu
    refine ⟨?_, ?_, ?_, ?_, fun r => ⟨?_, ?_⟩⟩
    · rw [low (by decide) (by decide) rfl, W.slotWrite_pwCtrl _ _ hu, ofNat_field_low v (by decide),
        ofNat_field_low v (by decide)]
      rfl
    · rw [low (by decide) (by decide) rfl, W.slotWrite_replayTo _ _ hu, ofNat_low v (by decide)]
      rfl
    · rw [low (by decide) (by decide) rfl, W.slotWrite_stackMap _ _ hu, ofNat_field_low v (by decide),
        ofNat_low v (by decide)]
      rfl
    · rw [low (by decide) (by decide) rfl, W.slotWrite_defTags _ _ hu, ofNat_low v (by decide)]
      rfl
    · rw [low (by omega) (by decide) rfl, W.slotWrite_region, W.regionWrite_tagCap _ _ (hw r), ofNat_low v (by decide)]
      rfl
    · rw [low (by omega) (by decide) rfl, W.slotWrite_region, W.regionWrite_scrub _ _ (hw r), ofNat_low v (by decide),
        testBit_toNat_low v (by decide)]
      rfl
  case timer =>
    rw [exec_write_wide v e hs (by decide) (by decide) rfl, W.slotWrite_wakeTimer]
    rfl
  case mode =>
    refine ⟨_, exec_write_controller r v e hs hp, ?_⟩
    rw [State.clusterWrite_mode, State.wakeCluster_powerOnly]
    simp
  case aligned =>
    refine ⟨fun hm => exec_write_unreached _ v e ha (by simp [State.mayWrite, hm]),
      fun h76 => exec_write_unreached _ v e ha (by simp [State.mayWrite, h76]), fun hk => ?_⟩
    refine ⟨_, exec_write_family wide v e hs hb ho ha, ?_⟩
    obtain ⟨p, h⟩ := W.slotWrite_cluster ⟨s, e⟩ hk _ _ _ _
    simp only [W.ctlWrite]
    rw [h]
    exact ⟨rfl, rfl, rfl⟩
  case misaligned =>
    exact fun who ha hf => exec_write_misaligned who v e hs hb ho ha hf

end Sys2Proof.Machine
end

section
/-! PROOF. A step and the command in front: no command faults or is refused, and none touches the queue (R18). -/

namespace Sys2Proof.Machine

/-! ## The queue -/

/-- Settles O1: by the two branches of `step` on the queue. -/
theorem stepRunsFrontCommand : Obligations.StepRunsFrontCommand := by
  unfold Obligations.StepRunsFrontCommand
  exact ⟨fun c rest s => rfl, fun s empty => by simp [step, empty]⟩

/-! ## Outcomes that complete -/

/-- The outcome is a next state that holds the queue of `s`. -/
def Completes (o : Host.Outcome State Fault Refusal) (s : State) : Prop := ∃ t, o = .next t ∧ t.pending = s.pending

theorem Completes.next {s t : State} (h : t.pending = s.pending) : Completes (.next t) s := ⟨t, rfl, h⟩

theorem Completes.stay {s : State} : Completes (.next s) s := .next rfl

theorem Completes.ite {c : Prop} [Decidable c] {x y : Host.Outcome State Fault Refusal} {s : State}
    (hx : Completes x s) (hy : Completes y s) : Completes (if c then x else y) s := by
  split
  · exact hx
  · exact hy

theorem State.pending_ite {c : Prop} [Decidable c] (s t : State) :
    (if c then s else t).pending = if c then s.pending else t.pending :=
  apply_ite State.pending c s t

theorem W.pending_ite {c : Prop} [Decidable c] (w v : W) :
    (if c then w else v).s.pending = if c then w.s.pending else v.s.pending :=
  apply_ite (fun w : W => w.s.pending) c w v

/-- What completes from a state with the same queue completes. -/
theorem Completes.trans {o : Host.Outcome State Fault Refusal} {s t : State} (ho : Completes o t)
    (h : t.pending = s.pending) : Completes o s := by
  obtain ⟨u, hu, hq⟩ := ho
  exact ⟨u, hu, hq.trans h⟩

theorem State.takeCurrent_pending {s t : State} {r : Region} {op : Nat} {c : Current}
    (h : s.takeCurrent r op = some (c, t)) : t.pending = s.pending :=
  (State.takeCurrent_frame h).2.1

/-! ## Array, chain and draws -/

theorem execCounterDraw_completes (r : Region) (slot : SlotNo) (grp : Nat) (remote : Option W64) (s : State) :
    Completes (execCounterDraw r slot grp remote s) s := by
  simp only [execCounterDraw]
  split
  · split
    · exact .stay
    · refine .ite .stay ?_
      split
      · exact .next (by simp)
      · refine .ite (.next (by simp [State.pending_ite])) ?_
        split
        · exact .next (by simp [State.pending_ite])
        · exact .stay
  · exact .stay

theorem execArrayStep_completes (r : Region) (c : Cluster) (waited : Nat) (e : Env) (s : State) :
    Completes (execArrayStep r c waited e s) s := by
  simp only [execArrayStep]
  split
  · exact .stay
  · split
    · exact .next (by simp [W.pending_ite])
    · refine .ite (.next (by simp [W.pending_ite])) ?_
      split
      · exact .next (by simp [W.pending_ite])
      · exact .next (by simp [W.pending_ite])
      · exact .next (by simp [W.pending_ite])

theorem execChunkEnd_completes (r : Region) (c : Cluster) (waited : Nat) (s : State) :
    Completes (execChunkEnd r c waited s) s := by
  simp only [execChunkEnd]
  split
  · exact .ite .stay (.next (by simp [State.pending_ite]))
  · exact .stay

theorem execPromotionRow_completes (r : Region) (c : Cluster) (e : Env) (s : State) :
    Completes (execPromotionRow r c e s) s := by
  simp only [execPromotionRow]
  split
  case h_2 => exact .stay
  case h_1 =>
    split
    · exact .stay
    · exact .stay
    · refine .ite (.next (by simp)) ?_
      split
      · exact .ite .stay (.next (by simp [State.pending_ite]))
      · refine .ite .stay (.ite (.next (by simp [State.pending_ite])) ?_)
        split
        · exact .next (by simp)
        · exact .next (by simp)
        · exact .next (by simp [State.pending_ite])

theorem execDrainComplete_completes (r : Region) (c : Cluster) (s : State) :
    Completes (execDrainComplete r c s) s := by
  simp only [execDrainComplete]
  split
  · exact .ite .stay (.next (by simp [State.pending_ite]))
  · exact .stay

theorem execTileAbort_completes (r : Region) (c : Cluster) (e : Env) (s : State) :
    Completes (execTileAbort r c e s) s := by
  simp only [execTileAbort]
  split
  · split
    · exact .stay
    · exact .ite .stay (.next (by simp))
  · exact .stay

theorem execVcPassStart_completes (r : Region) (c : Cluster) (waited : Nat) (e : Env) (s : State) :
    Completes (execVcPassStart r c waited e s) s := by
  simp only [execVcPassStart]
  split
  · exact .stay
  · split
    · exact .ite .stay (.next (by simp))
    · exact .stay
    · exact .next (by simp)

theorem execVcPassEnd_completes (r : Region) (c : Cluster) (cc : Nat) (s : State) :
    Completes (execVcPassEnd r c cc s) s := by
  simp only [execVcPassEnd]
  split
  · exact .ite .stay (.ite (.next (by simp)) (.next (by simp)))
  · exact .stay

/-! ## Ferries, staging and write-back -/

theorem execFerryContextTakeup_completes (r : Region) (e : Env) (s : State) :
    Completes (execFerryContextTakeup r e s) s := by
  simp only [execFerryContextTakeup]
  split
  · exact .ite (.next (by simp)) .stay
  · exact .stay

theorem execFerryReadIssue_completes (r : Region) (id : Nat) (e : Env) (s : State) :
    Completes (execFerryReadIssue r id e s) s := by
  simp only [execFerryReadIssue]
  split
  · exact .stay
  · split
    · split
      · exact .stay
      · refine .ite .stay ?_
        split
        · exact .next (by simp)
        · exact .ite .stay (.next (by simp))
    · exact .stay

theorem execFerryContextDone_completes (r : Region) (id : Nat) (e : Env) (s : State) :
    Completes (execFerryContextDone r id e s) s := by
  simp only [execFerryContextDone]
  split
  · exact .stay
  · refine .ite .stay ?_
    split
    · exact .next (by simp [W.pending_ite])
    · exact .next (by simp)

theorem execStageBlock_completes (r : Region) (slot : SlotNo) (pat : Nat) (coords : List Nat) (e : Env) (s : State) :
    Completes (execStageBlock r slot pat coords e s) s := by
  simp only [execStageBlock]
  split
  · refine .ite .stay ?_
    split
    · exact .next (by simp)
    · exact .next (by simp [State.pending_ite])
    · exact .next (by simp)
    · exact .stay
  · exact .stay

theorem execWriteBack_completes (r : Region) (slot : SlotNo) (pos pat : Nat) (e : Env) (s : State) :
    Completes (execWriteBack r slot pos pat e s) s := by
  simp only [execWriteBack]
  split
  · split
    · exact .stay
    · exact .ite (.next (by simp)) .stay
  · exact .stay

/-! ## Links -/

theorem execMapMessageAccepted_completes (b : BundleNo) (uis : List (BitVec 36)) (e : Env) (s : State) :
    Completes (execMapMessageAccepted b uis e s) s := by
  simp only [execMapMessageAccepted]
  split
  · exact .stay
  · exact .ite (.next (by simp)) .stay

theorem execCreditReturnTimer_completes (p : Port) (s : State) : Completes (execCreditReturnTimer p s) s := by
  simp only [execCreditReturnTimer]
  split
  · exact .ite (.next (by simp [State.pending_ite])) (.next (by simp [State.pending_ite]))
  · exact .next (by simp [State.pending_ite])

theorem execFlitReceived_completes (b : BundleNo) (uis : List (BitVec 36)) (e : Env) (s : State) :
    Completes (execFlitReceived b uis e s) s := by
  simp only [execFlitReceived]
  refine .ite .stay ?_
  split
  · exact .next (by simp)
  · exact .ite (.next (by simp)) (.next (by simp))

theorem execCap_completes (p : Port) (e : Env) (s : State) : Completes (execCap p e s) s := by
  simp only [execCap]
  split
  · exact .stay
  · exact .ite .stay (.ite (.next (by simp)) (.next (by simp)))

/-! ## Power, security and the test access chain -/

theorem execEbbEntryProgress_completes (s : State) : Completes (execEbbEntryProgress s) s := by
  have enterPorts (t : State) :
      (t.lowerPorts.foldl (fun s p => if (s.port p).state = 2 then s.lpEnter p else s) t).pending = t.pending :=
    foldl_pending _ (fun t p => by simp [State.pending_ite]) _ _
  simp only [execEbbEntryProgress]
  refine .ite (.ite .stay (.next (by simp))) (.ite .stay ?_)
  split
  · exact .next (by simp)
  · exact .next (foldl_pending _ (fun t p => by simp [State.pending_ite]) _ _)
  · exact .ite .stay (.ite (.next (by simp)) (.next (by simp)))
  · exact .ite (.next (by simp)) .stay

theorem execWakeProgress_completes (othersReady : Bool) (s : State) :
    Completes (execWakeProgress othersReady s) s := by
  simp only [execWakeProgress]
  refine .ite (.ite .stay (.next (by simp [State.pending_ite]))) (.ite .stay ?_)
  split
  · exact .next (by simp [State.pending_ite])
  · exact .ite (.next (by simp)) .stay
  · exact .next (by simp)
  · exact .next (by simp)
  · exact .next (by simp)
  · exact .ite (.next (by simp)) .stay

theorem execBottomTreeBuilt_completes (e : Env) (s : State) : Completes (execBottomTreeBuilt e s) s := by
  simp only [execBottomTreeBuilt]
  refine .ite (.ite ?_ (.next (by simp))) .stay
  split
  next h =>
    have ready := (State.treeReady_frame h).2.1
    exact .next (by simpa using ready)
  · exact .next (by simp)

theorem execTapInstruction_completes (i : TapInstr) (e : Env) (s : State) :
    Completes (execTapInstruction i e s) s := by
  simp only [execTapInstruction]
  refine .ite ?_ ?_
  · split
    · exact .ite (.next (by simp)) .stay
    · exact .ite (.next (by simp)) .stay
    · exact .stay
  · split <;> exact .next (by simp)

/-! ## Rings and their commands -/

theorem execRecordIssue_completes (r : Region) (e : Env) (s : State) : Completes (execRecordIssue r e s) s := by
  simp only [execRecordIssue]
  split
  · exact .stay
  · exact .ite (.next (by simp)) (.ite (.next (by simp)) (.next (by simp)))

theorem execNop_completes (r : Region) (e : Env) (s : State) : Completes (execNop r e s) s := by
  simp only [execNop]
  split
  · exact .stay
  next h => exact .trans (.next (by simp)) (State.takeCurrent_pending h)

theorem execBind_completes (r : Region) (from_ : Option Far) (e : Env) (s : State) :
    Completes (execBind r from_ e s) s := by
  simp only [execBind]
  split
  · exact .next (by simp)
  · exact .stay
  next h => exact .ite .stay (.trans (.next (by simp)) (State.takeCurrent_pending h))

theorem execBindRelease_completes (r : Region) (from_ : Option Far) (e : Env) (s : State) :
    Completes (execBindRelease r from_ e s) s := by
  simp only [execBindRelease]
  split
  · exact .ite (.next (by simp)) .stay
  · exact .stay
  next h =>
    exact .ite .stay (.trans (.ite (.next (by simp)) (.next (by simp))) (State.takeCurrent_pending h))

theorem execStart_completes (r : Region) (from_ : Option Far) (e : Env) (s : State) :
    Completes (execStart r from_ e s) s := by
  simp only [execStart]
  split
  · exact .next (by simp)
  · exact .stay
  next h =>
    refine .trans ?_ (State.takeCurrent_pending h)
    split
    · exact .ite (.next (by simp)) (.next (by simp))
    · exact .ite (.next (by simp)) (.next (by simp))
    · exact .ite (.next (by simp)) (.next (by simp))
    · exact .next (by simp)

theorem execStop_completes (r : Region) (from_ : Option Far) (e : Env) (s : State) :
    Completes (execStop r from_ e s) s := by
  simp only [execStop]
  split
  · exact .next (by simp)
  · exact .stay
  next h => exact .trans (.ite (.next (by simp)) (.next (by simp))) (State.takeCurrent_pending h)

theorem execResume_completes (r : Region) (from_ : Option Far) (e : Env) (s : State) :
    Completes (execResume r from_ e s) s := by
  simp only [execResume]
  split
  · exact .next (by simp)
  · exact .stay
  next h =>
    refine .trans ?_ (State.takeCurrent_pending h)
    split
    · exact .ite (.next (by simp)) (.next (by simp))
    · exact .ite (.next (by simp)) (.next (by simp))
    · exact .next (by simp)

theorem execResetCounter_completes (r : Region) (e : Env) (s : State) : Completes (execResetCounter r e s) s := by
  simp only [execResetCounter]
  split
  · exact .stay
  next h => exact .trans (.next (by simp)) (State.takeCurrent_pending h)

theorem execFence_completes (r : Region) (s : State) : Completes (execFence r s) s := by
  simp only [execFence]
  split
  · exact .stay
  next h => exact .trans (.next (by simp)) (State.takeCurrent_pending h)

theorem execWriteFlag_completes (r : Region) (s : State) : Completes (execWriteFlag r s) s := by
  simp only [execWriteFlag]
  split
  · exact .stay
  next h => exact .trans (.next (by simp)) (State.takeCurrent_pending h)

theorem execSignal_completes (r : Region) (s : State) : Completes (execSignal r s) s := by
  simp only [execSignal]
  split
  · exact .stay
  next h => exact .trans (.next (by simp)) (State.takeCurrent_pending h)

theorem execHoldRelease_completes (r : Region) (i : RingNo) (e : Env) (s : State) :
    Completes (execHoldRelease r i e s) s := by
  simp only [execHoldRelease]
  split
  · exact .stay
  · exact .ite (.next (by simp)) .stay

theorem execInstanceDrained_completes (r : Region) (slot : SlotNo) (far : Option FarEnd) (e : Env) (s : State) :
    Completes (execInstanceDrained r slot far e s) s := by
  simp only [execInstanceDrained]
  split
  · exact .stay
  · exact .ite .stay (.ite (.next (by simp)) (.next (by simp [State.pending_ite])))

theorem execInstanceFaulted_completes (r : Region) (slot : SlotNo) (met : BitVec 4) (far : Option FarEnd) (lost : Bool)
    (e : Env) (s : State) : Completes (execInstanceFaulted r slot met far lost e s) s := by
  have faulted : (if met = 0 then s else s.faultInst r slot met).pending = s.pending := by split <;> simp
  simp only [execInstanceFaulted]
  refine .trans ?_ faulted
  split
  · exact .stay
  · exact .ite .stay (.ite (.next (by simp)) (.next (by simp [State.pending_ite])))

theorem execPreemptDisplace_completes (r : Region) (named : Option Far) (e : Env) (s : State) :
    Completes (execPreemptDisplace r named e s) s := by
  simp only [execPreemptDisplace]
  split
  · exact .ite (.next (by simp [State.pending_ite])) .stay
  · split
    · exact .stay
    · exact .ite .stay (.next (by simp))

/-! ## Requests and responses -/

theorem execStreamRequestRelease_completes (p : Port) (ostr : BitVec 8) (e : Env) (s : State) :
    Completes (execStreamRequestRelease p ostr e s) s := by
  simp only [execStreamRequestRelease]
  split
  · exact .stay
  · split
    · exact .stay
    · exact .ite .stay (.next (by simp))

theorem execRcmp_completes (p : Port) (tag : BitVec 14) (st : Status) (e : Env) (s : State) :
    Completes (execRcmp p tag st e s) s := by
  simp only [execRcmp]
  refine .ite (.next (W.takeRsp_pending _ _ _ _ _ _ fun w n => by simp)) ?_
  split
  · exact .stay
  · exact .next (W.takeRsp_pending _ _ _ _ _ _ fun w n => by simp)

theorem execRequestTimeout_completes (isRead : Bool) (tag : BitVec 14) (e : Env) (s : State) :
    Completes (execRequestTimeout isRead tag e s) s := by
  simp only [execRequestTimeout]
  refine .ite ?_ ?_
  · split
    · exact .next (by simp)
    · exact .stay
  · split
    · exact .next (by simp)
    · exact .stay

/-! ## Start-up -/

theorem execPowerLoss_completes (ao bt : Bool) (s : State) : Completes (execPowerLoss ao bt s) s := by
  cases ao <;> cases bt <;> exact .next s.toReset_pending

theorem execRstNDeassert_completes (strap : BitVec 2) (vct : Nat) (s : State) :
    Completes (execRstNDeassert strap vct s) s := by
  simp only [execRstNDeassert]
  refine .ite .stay (.ite (.next (by simp)) ?_)
  split
  · exact .ite (.next (by simp)) (.next (by simp))
  · exact .next (by simp)
  · exact .next (by simp)

theorem execForwardedClockArrival_completes (ports : List Port) (s : State) :
    Completes (execForwardedClockArrival ports s) s := by
  simp only [execForwardedClockArrival]
  split
  · exact .stay
  · exact .ite .stay (.next (by simp [State.pending_ite]))

theorem execHaltReport_completes (reports : List (BitVec 3 × BitVec 8 × BitVec 16)) (s : State) :
    Completes (execHaltReport reports s) s := by
  simp only [execHaltReport]
  refine .ite .stay (.ite (.next (by simp)) (.ite (.next (by simp)) ?_))
  split
  · exact .next (by simp)
  · exact .stay

/-! ## All commands -/

theorem exec_completes (i : Instr) (s : State) : Completes (exec i s) s := by
  cases i with
  | rstNDeassert strap vct => exact execRstNDeassert_completes ..
  | resetAssert pwrgood => exact .ite .stay (.next (by simp))
  | upstreamClockLoss => exact .ite (.next (by simp)) .stay
  | forwardedClockArrival ports => exact execForwardedClockArrival_completes ..
  | standbyTimeout refclk => exact .ite .stay (.ite (.next (by simp)) (.next (by simp)))
  | startupStepAdvance e => exact .ite .stay (.ite (.next (by simp)) (.next (by simp)))
  | pkAssign v e => exact .next (by simp)
  | stackReadyTimeout w => exact .ite (.ite (.next (by simp)) (.next (by simp))) .stay
  | firmwareReadyTimeout r => exact .ite (.next (by simp)) .stay
  | haltReport reports => exact execHaltReport_completes ..
  | bundleClockTimeout b got => exact .ite (.ite (.next (by simp)) (.next (by simp))) .stay
  | bundleLockDone b => exact .ite (.next (by simp)) .stay
  | laneAlignDone b bad => exact .ite (.next (by simp)) .stay
  | laneAcceptanceDone b bad clkOk => exact .ite (.next (by simp)) .stay
  | mapMessageAccepted b uis e => exact execMapMessageAccepted_completes ..
  | prbsMapTimeout b => exact .ite (.next (by simp)) .stay
  | syncTimeout b e => exact .ite (.next (by simp)) .stay
  | flitReceived b uis e => exact execFlitReceived_completes ..
  | replayTimeout b => exact .ite (.next (by simp)) .stay
  | diagReq b => exact .next (by simp)
  | diagCheckDone b bad clkOk cc e => exact .ite (.next (by simp [W.pending_ite])) .stay
  | diagMapTimeout b e => exact .ite (.next (by simp)) .stay
  | retire p lb lastSeq e => exact .next (by simp)
  | retireAck p lb => exact .next (by simp)
  | replayBufferEmpty b => exact .ite (.next (by simp)) (.ite (.next (by simp)) .stay)
  | lpReq b => exact .next (by simp)
  | lpAck b => exact .next (by simp)
  | lpExit b bad => exact .ite (.next (by simp)) .stay
  | creditReturnTimer p => exact execCreditReturnTimer_completes ..
  | cap p e => exact execCap_completes ..
  | capack p => exact .ite .stay (.next (by simp))
  | capRepeatTimer p => exact .ite (.next (by simp)) .stay
  | capTimeout p e => exact .ite (.next (by simp)) .stay
  | rd p q e => exact .next (by simp)
  | wr p q e => exact .next (by simp)
  | wrs p q e => exact .next (by simp)
  | atomAdd p q e => exact .next (by simp)
  | atomSwap p q e => exact .next (by simp)
  | atomCas p q e => exact .next (by simp)
  | atomDraw p q e => exact .next (by simp)
  | dbell p q e => exact .next (by simp)
  | mrd way adr len => exact .next (by simp)
  | mwr way adr data => exact .next (by simp)
  | tsb p q testOut => exact .next (by simp)
  | rcmp p tag st e => exact execRcmp_completes ..
  | wcmp p tag st e => exact .next (W.takeRsp_pending _ _ _ _ _ _ fun w n => by simp)
  | acmp p tag st e => exact .next (W.takeRsp_pending _ _ _ _ _ _ fun w n => by simp)
  | payloadFlit p proto payload => exact .ite .stay (.ite (.next (by simp)) (.next (by simp)))
  | requestTimeout isRead tag e => exact execRequestTimeout_completes ..
  | streamRequestRelease p ostr e => exact execStreamRequestRelease_completes ..
  | fyStart r v e => exact .next (by simp)
  | ferryContextTakeup r e => exact execFerryContextTakeup_completes ..
  | ferryReadIssue r id e => exact execFerryReadIssue_completes ..
  | ferryContextDone r id e => exact execFerryContextDone_completes ..
  | stageBlock r slot pat coords e => exact execStageBlock_completes ..
  | writeBack r slot pos pat e => exact execWriteBack_completes ..
  | scrubTick r e => exact .ite (.next (by simp)) .stay
  | lgClear r v => exact .next (by simp)
  | counterDraw r slot grp remote => exact execCounterDraw_completes ..
  | arrayStep r c waited e => exact execArrayStep_completes ..
  | chunkEnd r c waited => exact execChunkEnd_completes ..
  | promotionRow r c e => exact execPromotionRow_completes ..
  | drainComplete r c => exact execDrainComplete_completes ..
  | tileAbort r c e => exact execTileAbort_completes ..
  | vcPassStart r c waited e => exact execVcPassStart_completes ..
  | vcPassEnd r c cc => exact execVcPassEnd_completes ..
  | instanceDrained r slot far e => exact execInstanceDrained_completes ..
  | instanceFaulted r slot met far lost e => exact execInstanceFaulted_completes ..
  | preemptDisplace r named e => exact execPreemptDisplace_completes ..
  | cmdRingDoorbell r n v e => exact .next (by simp)
  | cmdRingCfg r n v => exact .next (by simp)
  | recordIssue r e => exact execRecordIssue_completes ..
  | holdRelease r n e => exact execHoldRelease_completes ..
  | nop r e => exact execNop_completes ..
  | bind r from_ e => exact execBind_completes ..
  | bindRelease r from_ e => exact execBindRelease_completes ..
  | start r from_ e => exact execStart_completes ..
  | stop r from_ e => exact execStop_completes ..
  | resume r from_ e => exact execResume_completes ..
  | resetCounter r e => exact execResetCounter_completes ..
  | fence r => exact execFence_completes ..
  | writeFlag r => exact execWriteFlag_completes ..
  | signal r => exact execSignal_completes ..
  | cmdFltCfg r v => exact .next (by simp)
  | cmdFltRd r v => exact .next (by simp)
  | cmdMboxBell r v => exact .next (by simp)
  | clusterStartSlot => exact .ite (.next (by simp)) .stay
  | clusterIdleTimeout r c => exact .ite (.next (by simp)) .stay
  | regionSlackTimeout r => exact .ite (.next (by simp)) .stay
  | regionWake r => exact .ite (.next (by simp)) .stay
  | ebbReq e => exact .next (by simp)
  | ebbEntryProgress => exact execEbbEntryProgress_completes ..
  | offReq told => exact .ite (.next (by simp [State.pending_ite])) (.next (by simp))
  | aoCmdWake => exact .next (by simp)
  | wakeTimerExpiry => exact .ite (.next (by simp)) .stay
  | portWakeRequest p => exact .ite .stay (.ite (.next (by simp)) .stay)
  | wakeProgress othersReady => exact execWakeProgress_completes ..
  | thermalSample readings droops => exact .ite .stay (.next (by simp))
  | alarmSourceDetect src e => exact .ite .stay (.next (by simp))
  | peerAlarm e => exact .ite .stay (.next (by simp))
  | eraseSignal e => exact .ite (.next (by simp)) .stay
  | lockZeroingDone e => exact .ite (.next (by simp)) .stay
  | alarmNRelease => exact .ite (.next (by simp)) .stay
  | helperOverwrite serial => exact .ite (.next (by simp)) .stay
  | newNonce => exact .next (by simp)
  | tokenGo e => exact .next (by simp)
  | tokenForward token e => exact .ite (.next (by simp)) .stay
  | lowerEn level => exact .next (by simp)
  | attGo e => exact .next (by simp)
  | attestationReady e => exact .ite (.next (by simp)) (.next (by simp))
  | bottomTreeBuilt e => exact execBottomTreeBuilt_completes ..
  | packageAuth reports e => exact .ite (.ite (.next (by simp)) (.next (by simp))) .stay
  | attReadyTimeout e => exact .ite (.next (by simp)) .stay
  | tapInstruction n e => exact execTapInstruction_completes ..
  | segmentShiftUnit id out => exact .ite (.next (by simp)) .stay
  | ltFloodCcExpiry => exact .ite (.next (by simp)) .stay
  | ltCtrlFlush => exact .next (by simp)
  | ltCtrlSnap => exact .next (by simp)
  | flushComplete e => exact .ite (.next (by simp)) (.next (by simp [State.pending_ite, W.pending_ite]))
  | readToClear by_ blk off wide e =>
    exact .ite .stay (.ite (.next (by simp)) (.ite (.next (by simp)) (.next (by simp))))
  | registerWrite by_ blk off wide v e =>
    exact .ite .stay (.ite (.next (by simp)) (.ite .stay
      (.ite (.ite (.next (by simp)) .stay) (.next (by simp)))))
  | powerUp => exact .ite (.next (by simp)) .stay
  | powerLoss ao bt => exact execPowerLoss_completes ..
  | refclkLoss => exact .ite .stay (.ite (.next (by simp)) (.ite (.next (by simp)) (.next (by simp))))
  | pllLockTimeout => exact .ite (.next (by simp)) .stay

/-- Settles O2: exec answers a next state for each command, by cases on the command. -/
theorem everyCommandCompletes : Obligations.EveryCommandCompletes := exec_completes

end Sys2Proof.Machine
end

section
/-! PROOF. The strap and the roles of a start (R31, R321, R328, R341, R422, R476). -/

namespace Sys2Proof.Machine

/-- The state in which a chiplet that is no member leaves reset, its strap sampled. -/
def State.sampled (s : State) (strap : BitVec 2) (vct : Nat) : State :=
  (({ s with site := { s.site with vct := vct } }).onPk fun p =>
    { p with strap := strap, rstLow := false, cold := s.pk.pwrLow, pwrLow := false }).leaveReset

@[simp] theorem State.sampled_pk (s : State) (strap : BitVec 2) (vct : Nat) : (s.sampled strap vct).pk =
    { s.pk with strap := strap, rstLow := false, cold := s.pk.pwrLow, pwrLow := false } := by
  simp [State.sampled]

@[simp] theorem State.sampled_sec (s : State) (strap : BitVec 2) (vct : Nat) :
    (s.sampled strap vct).sec = s.sec := by
  simp [State.sampled]

@[simp] theorem State.sampled_mem (s : State) (strap : BitVec 2) (vct : Nat) :
    (s.sampled strap vct).mem = s.mem := by
  simp [State.sampled]

@[simp] theorem State.sampled_cc (s : State) (strap : BitVec 2) (vct : Nat) : (s.sampled strap vct).ao.cc = 0 := by
  simp [State.sampled, State.leaveReset]

@[simp] theorem State.asLead_pk (s : State) (acting : Bool) :
    (s.asLead acting).pk = { s.pk with lead := true, acting := acting, phase := .starting } := by
  unfold State.asLead
  split <;> rfl

@[simp] theorem State.asLead_ao (s : State) (acting : Bool) : (s.asLead acting).ao = s.ao := by
  unfold State.asLead
  split <;> rfl

/-- No alarm stands at a lead that starts: a cold start clears it (R321, R422). -/
theorem State.asLead_alarm {s : State} (acting : Bool) (h : s.pk.cold = true ∨ s.sec.alarm = 0) :
    (s.asLead acting).sec.alarm = 0 := by
  unfold State.asLead
  split
  · rfl
  next warm => exact h.resolve_left warm

/-- The start is warm and the chiplet Alarmed: it may not lead (R422, R476). -/
theorem alarmedWarm_iff (cold : Bool) (s : State) :
    (!cold && s.alarmed) = true ↔ cold = false ∧ s.sec.alarm ≠ 0 := by
  simp [State.alarmed]

theorem not_alarmedWarm {cold : Bool} {s : State} (h : cold = true ∨ s.sec.alarm = 0) :
    ¬(!cold && s.alarmed) = true := by
  rw [alarmedWarm_iff]
  rintro ⟨hc, ha⟩
  exact h.elim (by simp [hc]) ha

section
variable (s : State) (vct : Nat) (hp : s.pk.phase = .inReset) (ho : s.power.st ≠ .off) (hl : s.pk.rstLow = true)
include hp ho hl

theorem exec_rstNDeassert_member :
    exec (.rstNDeassert 0 vct) s = .next (s.onPk fun p => { p with strap := 0, rstLow := false }) := by
  simp [exec, execRstNDeassert, hp, ho, hl]

theorem exec_rstNDeassert_lead : exec (.rstNDeassert 1 vct) s =
    if !s.pk.pwrLow && s.alarmed then
      .next ((s.sampled 1 vct).onPk fun p => { p with lead := true, phase := .stopped })
    else .next ((s.sampled 1 vct).asLead false) := by
  simp only [exec, execRstNDeassert, hp, ho, hl]
  rfl

theorem exec_rstNDeassert_standby :
    exec (.rstNDeassert 2 vct) s = .next ((s.sampled 2 vct).onPk fun p => { p with phase := .standbyWait }) := by
  simp only [exec, execRstNDeassert, hp, ho, hl]
  rfl

theorem exec_rstNDeassert_none :
    exec (.rstNDeassert 3 vct) s = .next ((s.sampled 3 vct).onPk fun p => { p with phase := .stopped }) := by
  simp only [exec, execRstNDeassert, hp, ho, hl]
  rfl

end

theorem exec_rstNDeassert_again (s : State) (vct : Nat) (strap : BitVec 2) (h : s.pk.rstLow = false) :
    exec (.rstNDeassert strap vct) s = .next s := by
  simp [exec, execRstNDeassert, h]

theorem exec_standbyTimeout_refclk (s : State) (h : s.pk.phase = .standbyWait) : exec (.standbyTimeout true) s =
    if !s.pk.cold && s.alarmed then .next (s.onPk fun p => { p with phase := .stopped })
    else .next (s.asLead true) := by
  simp [exec, execStandbyTimeout, h]

/-- Settles O9: each strap by its equation of RST_N; whether a lead starts or stops turns on an alarm in a warm
start. -/
theorem strapSettlesTheRole : Obligations.StrapSettlesTheRole := by
  unfold Obligations.StrapSettlesTheRole
  refine fun vct s => ⟨fun hp ho hl => ⟨?member, ?lead, ?alarmed, ?standby, ?none⟩, ?again,
    fun hw => ⟨?acts, ?stops, ?waits⟩⟩
  case member => exact ⟨_, exec_rstNDeassert_member s vct hp ho hl, rfl, rfl, rfl⟩
  case lead =>
    intro h
    refine ⟨_, (exec_rstNDeassert_lead s vct hp ho hl).trans (if_neg (not_alarmedWarm h)), ?_⟩
    have cleared := State.asLead_alarm (s := s.sampled 1#2 vct) false (by simpa using h)
    simp [cleared]
  case alarmed =>
    intro hc ha
    exact ⟨_, (exec_rstNDeassert_lead s vct hp ho hl).trans (if_pos ((alarmedWarm_iff ..).2 ⟨hc, ha⟩)), by simp⟩
  case standby => exact ⟨_, exec_rstNDeassert_standby s vct hp ho hl, by simp⟩
  case none => exact ⟨_, exec_rstNDeassert_none s vct hp ho hl, by simp⟩
  case again => exact fun hl strap => exec_rstNDeassert_again s vct strap hl
  case acts =>
    intro h
    exact ⟨_, (exec_standbyTimeout_refclk s hw).trans (if_neg (not_alarmedWarm h)), by
      simp [State.asLead_alarm true h]⟩
  case stops =>
    intro hc ha
    exact ⟨_, (exec_standbyTimeout_refclk s hw).trans (if_pos ((alarmedWarm_iff ..).2 ⟨hc, ha⟩)), rfl⟩
  case waits => simp [exec, execStandbyTimeout]

end Sys2Proof.Machine
end

section
/-! PROOF. What the link's operations leave: all but links, outbox, lifetime counts and free values; and of a bundle,
what they do not write. -/

namespace Sys2Proof.Machine

/-! ## Bundles and ports under an update -/

theorem State.bundle_onBundle (s : State) (b c : BundleNo) (f : Bundle → Bundle) :
    (s.onBundle c f).bundle b = if b = c then f (s.bundle b) else s.bundle b :=
  vmod_get ..

@[simp] theorem State.bundle_onBundle_self (s : State) (b : BundleNo) (f : Bundle → Bundle) :
    (s.onBundle b f).bundle b = f (s.bundle b) := by
  simp [State.bundle_onBundle]

@[simp] theorem State.bundle_emit (s : State) (o : Out) (b : BundleNo) : (s.emit o).bundle b = s.bundle b := (rfl)

@[simp] theorem State.bundle_onPort (s : State) (p : Port) (f : PortSt → PortSt) (b : BundleNo) :
    (s.onPort p f).bundle b = s.bundle b := (rfl)

@[simp] theorem State.bundle_onBundleLife (s : State) (c : BundleNo) (f : BundleLife → BundleLife) (b : BundleNo) :
    (s.onBundleLife c f).bundle b = s.bundle b := (rfl)

@[simp] theorem State.bundle_count (s : State) (i : Fin 64) (n : Nat) (b : BundleNo) :
    (s.count i n).bundle b = s.bundle b := (rfl)

@[simp] theorem State.port_onPort_self (s : State) (p : Port) (f : PortSt → PortSt) :
    (s.onPort p f).port p = f (s.port p) :=
  vmod_get_self ..

@[simp] theorem State.port_onBundle (s : State) (b : BundleNo) (f : Bundle → Bundle) (p : Port) :
    (s.onBundle b f).port p = s.port p := (rfl)

@[simp] theorem State.port_emit (s : State) (o : Out) (p : Port) : (s.emit o).port p = s.port p := (rfl)

/-! ## Links only -/

theorem LinkOnly.refl (s : State) : LinkOnly s s := rfl

theorem LinkOnly.trans {s t u : State} (h : LinkOnly s t) (k : LinkOnly t u) : LinkOnly s u := by
  rw [LinkOnly] at h k ⊢
  rw [k, h]

theorem LinkOnly.mem {s t : State} (h : LinkOnly s t) : t.mem = s.mem := by rw [h]

theorem LinkOnly.regions {s t : State} (h : LinkOnly s t) : t.regions = s.regions := by rw [h]

theorem LinkOnly.ite {s t u : State} {c : Prop} [Decidable c] (h : LinkOnly s t) (k : LinkOnly s u) :
    LinkOnly s (if c then t else u) := by
  split
  · exact h
  · exact k

theorem LinkOnly.foldl {α : Type} {f : State → α → State} (hf : ∀ s a, LinkOnly s (f s a)) (xs : List α)
    (s : State) : LinkOnly s (xs.foldl f s) :=
  foldl_keeps (LinkOnly s) f (fun t a h => h.trans (hf t a)) xs s (.refl s)

theorem State.emit_linkOnly (s : State) (o : Out) : LinkOnly s (s.emit o) := rfl

theorem State.onBundle_linkOnly (s : State) (b : BundleNo) (f : Bundle → Bundle) : LinkOnly s (s.onBundle b f) := rfl

theorem State.onPort_linkOnly (s : State) (p : Port) (f : PortSt → PortSt) : LinkOnly s (s.onPort p f) := rfl

theorem State.onBundleLife_linkOnly (s : State) (b : BundleNo) (f : BundleLife → BundleLife) :
    LinkOnly s (s.onBundleLife b f) := rfl

theorem State.count_linkOnly (s : State) (i : Fin 64) (n : Nat) : LinkOnly s (s.count i n) := rfl

theorem State.sendOn_linkOnly (s : State) (b : BundleNo) (type : Nat) (seq : BitVec 12) (f : TxFlit) :
    LinkOnly s (s.sendOn b type seq f) := rfl

theorem State.sendIdle_linkOnly (s : State) (b : BundleNo) : LinkOnly s (s.sendIdle b) := rfl

theorem State.sendData_linkOnly (s : State) (b : BundleNo) (f : TxFlit) : LinkOnly s (s.sendData b f) := rfl

theorem State.round_linkOnly (s : State) (p : Port) : LinkOnly s (s.round p) :=
  .ite (.refl s) (.foldl (fun t b => t.onBundle_linkOnly b _) _ s)

theorem State.sendFlit_linkOnly (s : State) (p : Port) (f : TxFlit) : LinkOnly s (s.sendFlit p f) := by
  simp only [State.sendFlit]
  refine .ite (.refl s) (.ite ?_ (s.onPort_linkOnly p _))
  split
  · exact s.onPort_linkOnly p _
  · refine .trans ?_ (State.onPort_linkOnly _ p _)
    exact (s.round_linkOnly p).trans (State.sendData_linkOnly _ _ _)

theorem State.sendCap_linkOnly (s : State) (p : Port) : LinkOnly s (s.sendCap p) :=
  (s.sendFlit_linkOnly p _).trans (State.onPort_linkOnly _ p _)

theorem State.settlePort_linkOnly (s : State) (p : Port) : LinkOnly s (s.settlePort p) :=
  .ite (.refl s) (.ite (s.onPort_linkOnly p _) ((s.onPort_linkOnly p _).trans (State.sendCap_linkOnly _ p)))

theorem State.retireAtStart_linkOnly (s : State) (b : BundleNo) : LinkOnly s (s.retireAtStart b) :=
  (s.onBundle_linkOnly b _).trans
    ((State.onBundleLife_linkOnly _ b _).trans (State.settlePort_linkOnly _ (bundlePort b)))

theorem State.beginSync_linkOnly (s : State) (b : BundleNo) : LinkOnly s (s.beginSync b) := rfl

theorem State.setMapdiff_linkOnly (s : State) (b : BundleNo) : LinkOnly s (s.setMapdiff b) :=
  .ite (.refl s) (.ite rfl rfl)

theorem State.compareMaps_linkOnly (s : State) (b : BundleNo) : LinkOnly s (s.compareMaps b) := by
  unfold State.compareMaps
  split
  · exact .refl s
  · exact .ite (s.setMapdiff_linkOnly b) (.refl s)

theorem State.countTx_linkOnly (s : State) (b : BundleNo) (set : Nat) : LinkOnly s (s.countTx b set) := rfl

theorem State.countSpares_linkOnly (s : State) (b : BundleNo) (old new : LaneMap) :
    LinkOnly s (s.countSpares b old new) :=
  .ite (s.onBundleLife_linkOnly b _) (.refl s)

theorem State.countNarrows_linkOnly (s : State) (b : BundleNo) : LinkOnly s (s.countNarrows b) := rfl

/-- A port without a partner: the port is untrained, and so is each of its bundles (R35, R265). -/
theorem State.noPartner_linkOnly (s : State) (p : Port) : LinkOnly s (s.noPartner p) :=
  (s.onPort_linkOnly p _).trans (.foldl (fun t b => (t.emit_linkOnly _).trans (State.onBundle_linkOnly _ b _)) _ _)

/-! ## What a flit sent changes of a bundle -/

/-- Bundle `y` is `x` but for what the sending of flits changes (R259, R260, R274, R275, R278). -/
def SendsOnly (x y : Bundle) : Prop :=
  y = { x with nakDue := y.nakDue, txScr := y.txScr, trk := y.trk, nextSeq := y.nextSeq, held := y.held,
               placed := y.placed }

theorem SendsOnly.refl (x : Bundle) : SendsOnly x x := rfl

theorem SendsOnly.trans {x y z : Bundle} (h : SendsOnly x y) (k : SendsOnly y z) : SendsOnly x z := by
  rw [SendsOnly] at h k ⊢
  rw [k, h]

theorem SendsOnly.state {x y : Bundle} (h : SendsOnly x y) : y.state = x.state := by rw [h]

theorem SendsOnly.txNew {x y : Bundle} (h : SendsOnly x y) : y.txNew = x.txNew := by rw [h]

theorem SendsOnly.rxNew {x y : Bundle} (h : SendsOnly x y) : y.rxNew = x.rxNew := by rw [h]

theorem State.onBundle_sendsOnly (s : State) (c : BundleNo) {f : Bundle → Bundle} (hf : ∀ x, SendsOnly x (f x))
    (b : BundleNo) : SendsOnly (s.bundle b) ((s.onBundle c f).bundle b) := by
  rw [State.bundle_onBundle]
  split
  · exact hf _
  · exact .refl _

theorem State.round_sendsOnly (s : State) (p : Port) (b : BundleNo) :
    SendsOnly (s.bundle b) ((s.round p).bundle b) := by
  unfold State.round
  split
  · exact .refl _
  · refine foldl_keeps (fun t : State => SendsOnly (s.bundle b) (t.bundle b)) _ (fun t c h => ?_) _ s (.refl _)
    exact h.trans (t.onBundle_sendsOnly c (by exact fun _ => rfl) b)

theorem State.sendOn_sendsOnly (s : State) (c : BundleNo) (type : Nat) (seq : BitVec 12) (f : TxFlit) (b : BundleNo) :
    SendsOnly (s.bundle b) ((s.sendOn c type seq f).bundle b) :=
  State.onBundle_sendsOnly (s.emit _) c (by exact fun _ => rfl) b

theorem State.sendData_sendsOnly (s : State) (c : BundleNo) (f : TxFlit) (b : BundleNo) :
    SendsOnly (s.bundle b) ((s.sendData c f).bundle b) :=
  (s.sendOn_sendsOnly c 1 _ f b).trans (State.onBundle_sendsOnly _ c (by exact fun _ => rfl) b)

theorem State.sendFlit_sendsOnly (s : State) (p : Port) (f : TxFlit) (b : BundleNo) :
    SendsOnly (s.bundle b) ((s.sendFlit p f).bundle b) := by
  simp only [State.sendFlit]
  split
  · exact .refl _
  · split
    · split
      · exact .refl _
      · rw [State.bundle_onPort]
        exact (s.round_sendsOnly p b).trans (State.sendData_sendsOnly _ _ _ b)
    · exact .refl _

theorem State.sendCap_sendsOnly (s : State) (p : Port) (b : BundleNo) :
    SendsOnly (s.bundle b) ((s.sendCap p).bundle b) := by
  rw [State.sendCap, State.bundle_onPort]
  exact s.sendFlit_sendsOnly p _ b

theorem State.settlePort_sendsOnly (s : State) (p : Port) (b : BundleNo) :
    SendsOnly (s.bundle b) ((s.settlePort p).bundle b) := by
  unfold State.settlePort
  split
  · exact .refl _
  · split
    · rw [State.bundle_onPort]
      exact .refl _
    · exact State.sendCap_sendsOnly (s.onPort p _) p b

/-! ## Retirement, no partner, sync -/

theorem State.retireAtStart_bundle (s : State) (b : BundleNo) :
    SendsOnly { s.bundle b with state := 5, mapSent := false, mapGot := false } ((s.retireAtStart b).bundle b) := by
  simp only [State.retireAtStart]
  refine .trans ?_ (State.settlePort_sendsOnly _ _ b)
  rw [State.bundle_onBundleLife, State.bundle_onBundle_self]
  exact .refl _

theorem State.retireAtStart_state (s : State) (b : BundleNo) : ((s.retireAtStart b).bundle b).state = 5 :=
  (s.retireAtStart_bundle b).state

/-- Each bundle that has its turn in the fold is untrained, and stays so. -/
theorem State.foldl_untrained {f : State → BundleNo → State}
    (hf : ∀ s b c, ((f s b).bundle c).state = if c = b then 0 else (s.bundle c).state) (bs : List BundleNo)
    (s : State) {c : BundleNo} (hc : c ∈ bs ∨ (s.bundle c).state = 0) : ((bs.foldl f s).bundle c).state = 0 := by
  induction bs generalizing s with
  | nil => simpa using hc
  | cons b bs ih =>
    refine ih _ ?_
    rw [hf]
    by_cases h : c = b <;> simp_all

theorem State.noPartner_bundle_state (s : State) (p : Port) {c : BundleNo} (hc : c ∈ portBundles p) :
    ((s.noPartner p).bundle c).state = 0 :=
  State.foldl_untrained (fun t b c => by rw [State.bundle_onBundle]; split <;> rfl) _ _ (.inl hc)

theorem State.noPartner_port_state (s : State) (p : Port) : ((s.noPartner p).port p).state = 0 := by
  unfold State.noPartner
  refine foldl_keeps (fun t : State => (t.port p).state = 0) _ (fun _ _ h => ?_) _ _ (by simp)
  exact h

theorem State.setMapdiff_bundle (s : State) (b : BundleNo) :
    ∃ d, (s.setMapdiff b).bundle b = { s.bundle b with mapdiff := d } := by
  simp only [State.setMapdiff]
  split
  · exact ⟨_, rfl⟩
  · refine ⟨true, ?_⟩
    split <;> simp

theorem State.compareMaps_bundle (s : State) (b : BundleNo) :
    ∃ d, (s.compareMaps b).bundle b = { s.bundle b with mapdiff := d } := by
  simp only [State.compareMaps]
  split
  · exact ⟨_, rfl⟩
  · split
    · exact s.setMapdiff_bundle b
    · exact ⟨_, rfl⟩

/-- A bundle begins its sync: SEQ from 0 in training, the scramblers loaded, the maps kept (R260, R272). -/
theorem State.beginSync_bundle (s : State) (b : BundleNo) (h : (s.bundle b).why = .training) :
    ∃ v k, (s.beginSync b).bundle b = { s.bundle b with
      step := 8, goodRun := 0, badRun := 0, nakFor := none, nakDue := false, txScr := v, rxScr := scrSeeds, trk := k,
      nextSeq := 0, expSeq := 0 } := by
  simp [State.beginSync, State.sendIdle, State.sendOn, h]

end Sys2Proof.Machine
end

section
/-! PROOF. Map messages: two good copies are read on any voting set; what a map, once read, settles (R262-R266,
R272). -/

namespace Sys2Proof.Machine

/-! ## Reading a map message (R259, R263, R264) -/

theorem uiOf_lane (x vld trk : Bool) (p : Fin 34) : (uiOf (if x then 2 ^ 34 - 1 else 0) vld trk).getLsbD p = x := by
  revert x vld trk p
  decide

theorem uiOf_vld (x vld trk : Bool) : (uiOf (if x then 2 ^ 34 - 1 else 0) vld trk).getLsbD 34 = vld := by
  revert x vld trk
  decide

/-- A bit that all lanes carry wins every vote. -/
theorem vote_uiOf {set : List Nat} (hs : ∀ p ∈ set, p < 34) (hn : set ≠ []) (x vld trk : Bool) :
    vote set (uiOf (if x then 2 ^ 34 - 1 else 0) vld trk) = x := by
  have lanes : ∀ p ∈ set, (uiOf (if x then 2 ^ 34 - 1 else 0) vld trk).getLsbD p = x :=
    fun p hp => uiOf_lane x vld trk ⟨p, hs p hp⟩
  have pos : 0 < set.length := List.length_pos_iff.2 hn
  cases x with
  | true =>
    rw [vote, List.filter_eq_self.2 lanes]
    exact decide_eq_true (by omega)
  | false =>
    have none : set.filter (uiOf (if false then 2 ^ 34 - 1 else 0) vld trk).getLsbD = [] :=
      List.filter_eq_nil_iff.2 fun p hp => by rw [lanes p hp]; exact Bool.false_ne_true
    rw [vote, none]
    exact decide_eq_false (by simp only [List.length_nil]; omega)

theorem plainUis_votes {set : List Nat} (hs : ∀ p ∈ set, p < 34) (hn : set ≠ []) (k : BitVec 7)
    (ds : List (Bool × Bool)) : (plainUis k ds).1.map (vote set) = ds.map (·.1) := by
  induction ds generalizing k with
  | nil => rfl
  | cons d ds ih =>
    rw [plainUis, List.map_cons, List.map_cons, ih, vote_uiOf hs hn]

theorem plainUis_vld (k : BitVec 7) (ds : List (Bool × Bool)) :
    (plainUis k ds).1.map (·.getLsbD 34) = ds.map (·.2) := by
  induction ds generalizing k with
  | nil => rfl
  | cons d ds ih => rw [plainUis, List.map_cons, List.map_cons, ih, uiOf_vld]

theorem votingSet_lt {fail : BitVec 34} {p : Nat} (h : p ∈ votingSet fail) : p < 34 := by
  have good : p ∈ (List.range 34).filter fun p => !fail.getLsbD p := by
    simp only [votingSet] at h
    split at h
    · exact (List.dropLast_sublist _).mem h
    · exact h
  exact List.mem_range.1 (List.mem_filter.1 good).1

/-- Bits from `lo` on, put together again. -/
theorem foldr_bits (x : Nat) (lo n : Nat) :
    (List.range' lo n).foldr (fun i m => 2 * m + bit (x.testBit i)) 0 = x / 2 ^ lo % 2 ^ n := by
  induction n generalizing lo with
  | zero => rw [Nat.pow_zero, Nat.mod_one]; rfl
  | succ n ih =>
    have low : bit (x.testBit lo) = x / 2 ^ lo % 2 := by
      rw [Nat.testBit_eq_decide_div_mod_eq, bit]
      split <;> simp_all
    rw [List.range'_succ, List.foldr_cons, ih, low, Nat.pow_succ 2 lo, ← Nat.div_div_eq_div_mul,
      Nat.pow_succ' (m := 2), Nat.mod_mul, Nat.add_comm]

/-- UI whose votes are the bits of a word carry that word, bit 0 first. -/
theorem votedWord_of_votes {set : List Nat} {us : List (BitVec 36)} {w : W64}
    (h : us.map (vote set) = (List.range 64).map w.getLsbD) : votedWord set us = w := by
  have votes : us.foldr (fun u n => 2 * n + bit (vote set u)) 0 =
      (us.map (vote set)).foldr (fun x n => 2 * n + bit x) 0 := by rw [List.foldr_map]
  have bits := foldr_bits w.toNat 0 64
  rw [Nat.pow_zero, Nat.div_one, Nat.mod_eq_of_lt w.isLt] at bits
  rw [votedWord, votes, h, List.foldr_map, List.range_eq_range']
  exact (congrArg (BitVec.ofNat 64) bits).trans (by rw [BitVec.ofNat_toNat, BitVec.setWidth_eq])

/-- The first 128 UI of a map message are two copies: the word's bits, VLD at bit 0. -/
theorem take_mapBits (w : W64) : (mapBits w).take 128 =
    ((List.range 64).map fun i => (w.getLsbD i, i == 0)) ++ (List.range 64).map fun i => (w.getLsbD i, i == 0) := by
  rfl

/-- VLD in the first UI of each 64 frames the UI. -/
theorem framed_of_vld {us : List (BitVec 36)} {m : Nat}
    (h : us.map (·.getLsbD 34) = (List.range m).map (· % 64 == 0)) : framed 64 us = true := by
  rw [framed, List.all_eq_true]
  rintro ⟨u, i⟩ hu
  obtain ⟨hi, hu⟩ := List.mem_zipIdx' hu
  have same := List.getElem_of_eq h (i := i) (by rw [List.length_map]; exact hi)
  rw [List.getElem_map, List.getElem_map, List.getElem_range] at same
  rw [hu, beq_iff_eq]
  exact same

/-- Two good copies are read on any voting set (R264). -/
theorem Bundle.readMap_copies (x : Bundle) (hv : x.voters ≠ []) (w : W64) (k : BitVec 7) (hw : mapGood w = true) :
    x.readMap ((plainUis k (mapBits w)).1.take 128) = some w := by
  have votes : ((plainUis k (mapBits w)).1.take 128).map (vote x.voters) =
      (List.range 64).map w.getLsbD ++ (List.range 64).map w.getLsbD := by
    rw [List.map_take, plainUis_votes (set := x.voters) (fun _ => votingSet_lt) hv, ← List.map_take, take_mapBits]
    rfl
  have vld : ((plainUis k (mapBits w)).1.take 128).map (·.getLsbD 34) = (List.range 128).map (· % 64 == 0) := by
    rw [List.map_take, plainUis_vld, ← List.map_take, take_mapBits]
    rfl
  have length : ((plainUis k (mapBits w)).1.take 128).length = 128 := by
    rw [← List.length_map (vote x.voters), votes]
    rfl
  have one : votedWord x.voters (((plainUis k (mapBits w)).1.take 128).take 64) = w :=
    votedWord_of_votes (by rw [List.map_take, votes]; rfl)
  have two : votedWord x.voters (((plainUis k (mapBits w)).1.take 128).drop 64) = w :=
    votedWord_of_votes (by rw [List.map_drop, votes]; rfl)
  simp only [Bundle.readMap]
  rw [one, two, if_pos ⟨length, framed_of_vld vld, rfl, hw⟩]

/-! ## Taking the partner's map (R263, R264) -/

/-- The map that a message gives to the partner's direction (R263). -/
def mapOf (m : W64) : LaneMap := ⟨m.extractLsb' 0 34, m.extractLsb' 34 2⟩

theorem mapOf_fields (m : W64) :
    (⟨BitVec.ofNat 34 (field m.toNat 0 34), BitVec.ofNat 2 (field m.toNat 34 2)⟩ : LaneMap) = mapOf m := by
  have fail : BitVec.ofNat 34 (field m.toNat 0 34) = m.extractLsb' 0 34 :=
    BitVec.eq_of_toNat_eq (by simp [field])
  have mode : BitVec.ofNat 2 (field m.toNat 34 2) = m.extractLsb' 34 2 :=
    BitVec.eq_of_toNat_eq (by simp [field, Nat.shiftRight_eq_div_pow])
  rw [mapOf, fail, mode]

@[simp] theorem State.bundle_countTx (s : State) (c : BundleNo) (set : Nat) (b : BundleNo) :
    (s.countTx c set).bundle b = s.bundle b := (rfl)

@[simp] theorem State.bundle_countNarrows (s : State) (c b : BundleNo) :
    (s.countNarrows c).bundle b = s.bundle b := (rfl)

@[simp] theorem State.bundle_countSpares (s : State) (c : BundleNo) (old new : LaneMap) (b : BundleNo) :
    (s.countSpares c old new).bundle b = s.bundle b := by
  simp only [State.countSpares]
  split <;> rfl

/-- In training a map taken becomes the new TX map; beside it only links and counts change (R263, R265). -/
theorem W.takeMap_training (w : W) (b : BundleNo) (m : W64) (h : (w.s.bundle b).why = .training) :
    LinkOnly w.s (w.takeMap b m).s ∧ ∃ a, (w.takeMap b m).s.bundle b =
      { w.s.bundle b with txNew := mapOf m, mapGot := true, added := a } := by
  simp only [W.takeMap, mapOf_fields, h, if_true]
  split
  · refine ⟨.trans ?_ (State.countNarrows_linkOnly _ b), _, by simp [h]; rfl⟩
    refine .trans ?_ (State.countSpares_linkOnly _ b _ _)
    exact (w.s.onBundle_linkOnly b _).trans (State.countTx_linkOnly _ b _)
  · refine ⟨.trans ?_ (State.countSpares_linkOnly _ b _ _), _, by simp [h]; rfl⟩
    exact (w.s.onBundle_linkOnly b _).trans (State.countTx_linkOnly _ b _)

/-! ## Once both maps are there (R265, R266, R272) -/

/-- The maps of training are in force, held against the assembly lane map (R268). -/
def State.mapsInForce (s : State) (b : BundleNo) (run : List Nat) : State :=
  (s.onBundle b fun y => { y.mapped with barren := run }).compareMaps b

theorem State.mapsInForce_linkOnly (s : State) (b : BundleNo) (run : List Nat) : LinkOnly s (s.mapsInForce b run) :=
  (s.onBundle_linkOnly b _).trans (State.compareMaps_linkOnly _ b)

theorem State.mapsInForce_bundle (s : State) (b : BundleNo) (run : List Nat) (h : (s.bundle b).why = .training) :
    ∃ d, (s.mapsInForce b run).bundle b = { s.bundle b with
      tx := (s.bundle b).txNew, rx := (s.bundle b).rxNew, txStart := (s.bundle b).txNew.fail,
      rxStart := (s.bundle b).rxNew.fail, mapdiff := d, barren := run } := by
  obtain ⟨d, hd⟩ := (s.onBundle b fun y => { y.mapped with barren := run }).compareMaps_bundle b
  exact ⟨d, by rw [State.mapsInForce, hd]; simp [Bundle.mapped, h]⟩

theorem W.retireBundle_training (w : W) (b : BundleNo) (h : (w.s.bundle b).why = .training) :
    w.retireBundle b = w.on (·.retireAtStart b) :=
  if_pos h

/-- Until both maps are there, nothing follows. -/
theorem W.mapsReady_waits (w : W) (b : BundleNo) (h : (w.s.bundle b).mapSent = false) : w.mapsReady b = w := by
  simp [W.mapsReady, h]

section
variable (w : W) (b : BundleNo) (why : (w.s.bundle b).why = .training) (sent : (w.s.bundle b).mapSent = true)
  (got : (w.s.bundle b).mapGot = true)
include why sent got

theorem W.mapsReady_training : (w.mapsReady b).s =
    if 2 ≤ (w.s.bundle b).rxNew.mode.toNat ∨ 2 ≤ (w.s.bundle b).txNew.mode.toNat
    then (w.s.mapsInForce b (w.s.bundle b).barren).retireAtStart b
    else (w.s.mapsInForce b (w.s.bundle b).barren).beginSync b := by
  obtain ⟨d, hd⟩ := w.s.mapsInForce_bundle b (w.s.bundle b).barren why
  have inForce : ((w.s.mapsInForce b (w.s.bundle b).barren).bundle b).why = .training := by rw [hd]; exact why
  have noDiag : (MapFor.training == MapFor.diagnosis) = false := rfl
  simp only [W.mapsReady, sent, got, why, noDiag, Bool.and_self, Bool.not_true, Bool.false_and, Bool.false_eq_true,
    if_true, if_false]
  split
  · rw [W.retireBundle_training]
    · simp only [W.on_s, State.mapsInForce]
    · simpa only [W.on_s, State.mapsInForce] using inForce
  · rfl

/-- A direction that cannot run retires the bundle (R266). -/
theorem W.mapsReady_retires (h : 2 ≤ (w.s.bundle b).rxNew.mode.toNat ∨ 2 ≤ (w.s.bundle b).txNew.mode.toNat) :
    LinkOnly w.s (w.mapsReady b).s ∧ ((w.mapsReady b).s.bundle b).state = 5 ∧
      ((w.mapsReady b).s.bundle b).txNew = (w.s.bundle b).txNew ∧
      ((w.mapsReady b).s.bundle b).rxNew = (w.s.bundle b).rxNew := by
  rw [w.mapsReady_training b why sent got, if_pos h]
  obtain ⟨d, hd⟩ := w.s.mapsInForce_bundle b (w.s.bundle b).barren why
  have retired := (w.s.mapsInForce b (w.s.bundle b).barren).retireAtStart_bundle b
  exact ⟨(w.s.mapsInForce_linkOnly b _).trans (State.retireAtStart_linkOnly _ b), retired.state,
    retired.txNew.trans (by rw [hd]), retired.rxNew.trans (by rw [hd])⟩

/-- Directions that can both run sync on the new maps, from SEQ 0 (R260, R272). -/
theorem W.mapsReady_syncs (h : (w.s.bundle b).rxNew.mode.toNat < 2) (k : (w.s.bundle b).txNew.mode.toNat < 2) :
    LinkOnly w.s (w.mapsReady b).s ∧ ∃ x : Bundle, (w.mapsReady b).s.bundle b = { x with
      state := (w.s.bundle b).state, step := 8, nextSeq := 0, expSeq := 0, rxScr := scrSeeds,
      rx := (w.s.bundle b).rxNew, tx := (w.s.bundle b).txNew,
      rxNew := (w.s.bundle b).rxNew, txNew := (w.s.bundle b).txNew } := by
  rw [w.mapsReady_training b why sent got, if_neg (by omega)]
  refine ⟨(w.s.mapsInForce_linkOnly b _).trans (State.beginSync_linkOnly _ b),
    ((w.s.mapsInForce b (w.s.bundle b).barren).beginSync b).bundle b, ?_⟩
  obtain ⟨d, hd⟩ := w.s.mapsInForce_bundle b (w.s.bundle b).barren why
  obtain ⟨v, c, hb⟩ := (w.s.mapsInForce b (w.s.bundle b).barren).beginSync_bundle b (by rw [hd]; exact why)
  rw [hb, hd]

end

/-! ## The commands -/

theorem exec_mapMessageAccepted (b : BundleNo) {uis : List (BitVec 36)} (e : Env) (s : State) {m : W64}
    (hr : (s.bundle b).readMap uis = some m) (hw : (s.bundle b).wantsMap = true) :
    exec (.mapMessageAccepted b uis e) s = .next (((⟨s, e⟩ : W).takeMap b m).mapsReady b).s := by
  simp [exec, execMapMessageAccepted, hr, hw]

/-- Settles O16: a good message is read on any voting set; once both maps of training are there, the modes decide
between sync and retirement; each timeout retires, or finds no partner. -/
theorem mapsLeadToSyncOrRetirement : Obligations.MapsLeadToSyncOrRetirement := by
  unfold Obligations.MapsLeadToSyncOrRetirement
  refine fun b e s => ⟨fun hv w k hw => (s.bundle b).readMap_copies hv w k hw, fun uis hr => ?unread, fun h1 ht =>
    ⟨fun uis m hr h4 hg => ?taken, fun got h1' hb => ⟨?clock, ?noClock⟩, fun h4 hg => ?noMap,
      fun hs => ?noSync⟩⟩
  case unread => simp [exec, execMapMessageAccepted, hr]
  case taken =>
    obtain ⟨only, a, hx⟩ := W.takeMap_training ⟨s, e⟩ b m ht
    refine ⟨_, exec_mapMessageAccepted b e s hr (by simp [Bundle.wantsMap, hg, h1, h4]), ?_⟩
    generalize W.takeMap ⟨s, e⟩ b m = u at only hx ⊢
    have why : (u.s.bundle b).why = .training := by rw [hx]; exact ht
    cases sent : (s.bundle b).mapSent with
    | false =>
      rw [u.mapsReady_waits b (by rw [hx]; exact sent)]
      simp [hx, only.mem, only.regions, mapOf, h1]
    | true =>
      have sent' : (u.s.bundle b).mapSent = true := by rw [hx]; exact sent
      have got' : (u.s.bundle b).mapGot = true := by rw [hx]
      by_cases run : (s.bundle b).rxNew.mode.toNat < 2 ∧ (m.extractLsb' 34 2).toNat < 2
      · obtain ⟨sync, x, hb⟩ := u.mapsReady_syncs b why sent' got' (by rw [hx]; exact run.1)
          (by rw [hx]; exact run.2)
        exact ⟨by rw [hb, hx, mapOf], by rw [hb, hx], sync.mem.trans only.mem, sync.regions.trans only.regions, nofun,
          fun _ _ _ => by simp [hb, hx, h1, mapOf], fun _ h => absurd h (by omega)⟩
      · obtain ⟨retire, h5, tx, rx⟩ := u.mapsReady_retires b why sent' got' (by rw [hx]; simp only [mapOf]; omega)
        exact ⟨by rw [tx, hx, mapOf], by rw [rx, hx], retire.mem.trans only.mem, retire.regions.trans only.regions,
          nofun, fun _ h k => absurd ⟨h, k⟩ run, fun _ _ => h5⟩
  case clock =>
    rintro ⟨c, hc, hcc⟩
    refine ⟨s.retireAtStart b, ?_, s.retireAtStart_state b, (s.retireAtStart_linkOnly b).mem⟩
    have clocked : ((portBundles (bundlePort b)).any fun c =>
        got.contains c || (s.bundle c).state != 1 || decide (1 < (s.bundle c).step)) = true :=
      List.any_eq_true.2 ⟨c, hc, by simpa [or_assoc] using hcc⟩
    simp only [exec, execBundleClockTimeout]
    rw [if_pos ⟨h1, h1', by simpa using hb⟩, if_pos clocked]
  case noClock =>
    intro hc
    refine ⟨s.noPartner (bundlePort b), ?_, s.noPartner_port_state _, fun c => s.noPartner_bundle_state _,
      s.noPartner_linkOnly _⟩
    have unclocked : ¬((portBundles (bundlePort b)).any fun c =>
        got.contains c || (s.bundle c).state != 1 || decide (1 < (s.bundle c).step)) = true := by
      simpa [and_assoc] using hc
    simp only [exec, execBundleClockTimeout]
    rw [if_pos ⟨h1, h1', by simpa using hb⟩, if_neg unclocked]
  case noMap =>
    refine ⟨s.retireAtStart b, ?_, s.retireAtStart_state b, (s.retireAtStart_linkOnly b).mem⟩
    simp [exec, execPrbsMapTimeout, h1, h4, hg]
  case noSync =>
    refine ⟨s.retireAtStart b, ?_, s.retireAtStart_state b, (s.retireAtStart_linkOnly b).mem⟩
    simp [exec, execSyncTimeout, hs, W.retireBundle_training, ht]

end Sys2Proof.Machine
end

section
/-! PROOF. What a cluster's reads leave (R220, R225, R231, R244, R368): no array and no chain, whosever they are, and of
an `Inst` all but its count of fault records; of the reading cluster the counts of its shoal words may move. -/

namespace Sys2Proof.Machine

/-! ## Instances and clusters under an update -/

theorem State.inst_onInst (s : State) (r i : Region) (k j : SlotNo) (f : Inst → Inst) :
    (s.onInst r k f).inst i j = if i = r ∧ j = k then f (s.inst i j) else s.inst i j := by
  simp only [State.inst, State.onInst_regions, vmod_get]
  by_cases hi : i = r <;> simp [hi, vmod_get]

@[simp] theorem State.inst_onInst_self (s : State) (r : Region) (k : SlotNo) (f : Inst → Inst) :
    (s.onInst r k f).inst r k = f (s.inst r k) := by
  simp [State.inst_onInst]

/-- An update of a region that keeps its `insts` keeps each one. -/
theorem State.inst_onRegion (s : State) (r i : Region) (j : SlotNo) (f : RegionSt → RegionSt)
    (hf : ∀ x, (f x).insts = x.insts) : (s.onRegion r f).inst i j = s.inst i j := by
  simp only [State.inst, State.onRegion_regions, vmod_get]
  split <;> simp [hf]

/-! ## Arrays kept -/

/-- Every cluster is as before, and each `Inst` but for its count of fault records. -/
def ArraysKept (s t : State) : Prop :=
  t.clusters = s.clusters ∧ ∀ r k, ∃ n, t.inst r k = { s.inst r k with faults := n }

theorem ArraysKept.of_eq {s t : State} (hc : t.clusters = s.clusters) (hr : t.regions = s.regions) :
    ArraysKept s t :=
  ⟨hc, fun r k => ⟨(s.inst r k).faults, by simp only [State.inst, hr]⟩⟩

theorem ArraysKept.refl (s : State) : ArraysKept s s := .of_eq rfl rfl

theorem ArraysKept.trans {s t u : State} (h : ArraysKept s t) (g : ArraysKept t u) : ArraysKept s u := by
  refine ⟨g.1.trans h.1, fun r k => ?_⟩
  obtain ⟨a, ha⟩ := h.2 r k
  obtain ⟨b, hb⟩ := g.2 r k
  exact ⟨b, by rw [hb, ha]⟩

theorem State.onRegion_arraysKept (s : State) (r : Region) (f : RegionSt → RegionSt)
    (hf : ∀ x, (f x).insts = x.insts) : ArraysKept s (s.onRegion r f) :=
  ⟨rfl, fun i j => ⟨(s.inst i j).faults, s.inst_onRegion r i j f hf⟩⟩

theorem State.onFerry_arraysKept (s : State) (r : Region) (f : RegFerry → RegFerry) : ArraysKept s (s.onFerry r f) :=
  s.onRegion_arraysKept r _ fun _ => rfl

theorem State.count_arraysKept (s : State) (i : Fin 64) (n : Nat) : ArraysKept s (s.count i n) := .of_eq rfl rfl

theorem State.wakeRegion_arraysKept (s : State) (r : Region) : ArraysKept s (s.wakeRegion r) := by
  rw [State.wakeRegion_powerOnly]; exact .of_eq rfl rfl

theorem State.wakeCluster_arraysKept (s : State) (k : Nat) : ArraysKept s (s.wakeCluster k) := by
  rw [State.wakeCluster_powerOnly]; exact .of_eq rfl rfl

/-! ## Requests beyond the chiplet -/

theorem W.answer_s (w : W) : w.answer.1.s = w.s := by
  simp only [W.answer]; split <;> rfl

theorem W.ask_arraysKept (w : W) (x : Post) : ArraysKept w.s (w.ask x).1.s := by
  unfold W.ask
  extract_lets held y
  have sent : ArraysKept w.s y.1.s := by
    simp only [y, W.answer_s, W.on_s, State.notePeak]
    (repeat' split) <;> exact .of_eq rfl rfl
  dsimp only
  split
  · exact sent.trans (.of_eq rfl rfl)
  · exact sent

theorem W.askWay_arraysKept (w : W) (x : Way) (op len : Nat) (data : List Byte) (op0 : W64) :
    ArraysKept w.s (w.askWay x op len data op0).1.s := by
  have numbered : ArraysKept w.s (w.s.numbered x).1 := by
    simp only [State.numbered]; split <;> exact .of_eq rfl rfl
  exact numbered.trans (W.ask_arraysKept ..)

theorem W.askBlocks_arraysKept (w : W) (x : Way) (n : Nat) : ArraysKept w.s (w.askBlocks x n).1.s := by
  have first := w.askWay_arraysKept x 1 n [] 0
  have again := first.trans (.trans (.of_eq rfl rfl)
    (((w.askWay x 1 n [] 0).1.on (·.memReread)).askWay_arraysKept x 1 n [] 0))
  simp only [W.askBlocks]
  (repeat' split)
  · exact first
  · exact first
  · exact again
  · exact again
  · exact again.trans (.of_eq rfl rfl)

theorem W.askRead_arraysKept (w : W) (x : Way) (n : Nat) : ArraysKept w.s (w.askRead x n).1.s := by
  simp only [W.askRead]; split
  · exact W.askBlocks_arraysKept ..
  · exact W.askWay_arraysKept ..

theorem W.putBlocks_arraysKept (w : W) (x : Way) (bs : List Byte) : ArraysKept w.s (w.putBlocks x bs).1.s := by
  unfold W.putBlocks
  extract_lets y z
  have first : ArraysKept w.s y.1.s := w.askWay_arraysKept ..
  have sent : ArraysKept w.s z.1.s := by
    simp only [z]; split
    · exact first.trans (y.1.askWay_arraysKept ..)
    · exact first
  dsimp only
  split
  · exact sent
  · exact sent.trans (.of_eq rfl rfl)

theorem W.askWrite_arraysKept (w : W) (x : Way) (bs : List Byte) : ArraysKept w.s (w.askWrite x bs).1.s := by
  simp only [W.askWrite]
  (repeat' split)
  · exact W.askWay_arraysKept ..
  · exact W.putBlocks_arraysKept ..
  · exact W.askBlocks_arraysKept ..
  · exact (W.askBlocks_arraysKept ..).trans (W.putBlocks_arraysKept ..)

theorem W.leave64_arraysKept (w : W) (a : Nat) (bs : List Byte) : ArraysKept w.s (w.leave64 a bs).1.s := by
  simp only [W.leave64]; split
  · exact W.askWrite_arraysKept ..
  · exact .refl _
  · exact .of_eq rfl rfl

/-! ## Fault records (R368, R369) -/

theorem W.write64_arraysKept (w : W) (a : Nat) (bs : List Byte) : ArraysKept w.s (w.write64 a bs).1.s := by
  simp only [W.write64]
  (repeat' split)
  · exact .refl _
  · exact (w.s.wakeRegion_arraysKept _).trans (.trans (.of_eq rfl rfl) (State.onFerry_arraysKept ..))
  · exact .of_eq rfl rfl
  · exact .refl _
  · exact W.leave64_arraysKept ..
  · exact W.leave64_arraysKept ..
  · exact .trans (.of_eq rfl rfl) (State.wakeCluster_arraysKept ..)
  · exact .refl _
  · exact .refl _

theorem State.faultLost_arraysKept (s : State) (r : Region) : ArraysKept s (s.faultLost r) :=
  (s.onRegion_arraysKept r (fun x => { x with flt := { x.flt with lost := x.flt.lost + 1 } }) fun _ => rfl).trans
    (State.count_arraysKept ..)

theorem W.bell_arraysKept (w : W) (a : Nat) (v : W64) : ArraysKept w.s (w.bell a v).s := by
  simp only [W.bell]
  (repeat' split)
  · exact W.askWay_arraysKept ..
  · exact .refl _
  · exact .of_eq rfl rfl
  · exact .of_eq rfl rfl

/-- A fault record counts at the `Inst` that it names, and is all that reaches it. -/
theorem State.countFault_arraysKept (s : State) (r : Region) (k : SlotNo) :
    ArraysKept s (s.onInst r k fun y => { y with faults := y.faults + 1 }) := by
  refine ⟨rfl, fun i j => ?_⟩
  rw [State.inst_onInst]; split
  · exact ⟨_, rfl⟩
  · exact ⟨(s.inst i j).faults, rfl⟩

theorem W.fault_arraysKept (w : W) (r : Region) (f : FaultRec) : ArraysKept w.s (w.fault r f).s := by
  unfold W.fault
  extract_lets q n x w1 w2
  have wrote : ArraysKept w.s x.1.s := w.write64_arraysKept ..
  have counted : ArraysKept w.s w1.s :=
    wrote.trans ((x.1.s.onRegion_arraysKept r (fun y => { y with flt := { y.flt with wr := y.flt.wr + 1 } })
      fun _ => rfl).trans (State.count_arraysKept ..))
  have told : ArraysKept w.s w2.s := by
    simp only [w2]; split
    · exact counted.trans (w1.bell_arraysKept ..)
    · exact counted
  (repeat' split)
  · exact w.s.faultLost_arraysKept r
  · exact wrote.trans (x.1.s.faultLost_arraysKept r)
  · exact told.trans (State.countFault_arraysKept ..)
  · exact told

theorem W.accessFault_arraysKept (w : W) (who : Who) (cause a : Nat) : ArraysKept w.s (w.accessFault who cause a).s :=
  W.fault_arraysKept ..

/-! ## Reads (R217, R220, R225) -/

theorem W.checkBlock_arraysKept (w : W) (b : Nat) : ArraysKept w.s (w.checkBlock b).1.s := by
  unfold W.checkBlock
  extract_lets r w1 w2 env
  have poisoned : ArraysKept w.s w1.s :=
    have marked : ArraysKept w.s { w.s with mem := { w.s.mem with poison := setInsert b w.s.mem.poison } } :=
      .of_eq rfl rfl
    (marked.trans (State.onFerry_arraysKept ..)).trans (State.count_arraysKept ..)
  have reread : ArraysKept w.s w2.s := (State.onFerry_arraysKept ..).trans (State.count_arraysKept ..)
  (repeat' split)
  · exact .refl w.s
  · exact poisoned.trans (w1.fault_arraysKept ..)
  · exact reread
  · exact .refl w.s

theorem W.checkBlocks_arraysKept (w : W) (b n : Nat) : ArraysKept w.s (w.checkBlocks b n).1.s := by
  induction n generalizing w b with
  | zero => exact .refl _
  | succ n ih => exact (w.checkBlock_arraysKept b).trans (ih _ _)

theorem W.lagoonRead_arraysKept (w : W) (off n : Nat) : ArraysKept w.s (w.lagoonRead off n).1.s := by
  have read := (w.s.wakeRegion_arraysKept _).trans
    ((w.on (·.wakeRegion (blockRegion (off / 64)))).checkBlocks_arraysKept (off / 64) (blockSpan off n))
  simp only [W.lagoonRead]; split <;> exact read

theorem W.refuse_arraysKept (w : W) (dir hit : Bool) (win : Nat) (p : Port) (a : Nat) :
    ArraysKept w.s (w.refuse dir hit win p a).s :=
  have noted : ArraysKept w.s (w.on (·.noteRefused dir hit win p a)).s := .of_eq rfl rfl
  noted.trans (W.fault_arraysKept ..)

theorem W.exit_arraysKept (w : W) (a : Nat) (k : Access) : ArraysKept w.s (w.exit a k).1.s := by
  simp only [W.exit]; split
  · exact .refl _
  · exact .refl _
  · exact W.refuse_arraysKept ..

theorem W.farRead_arraysKept (w : W) (a : Nat) (ps : List (Nat × Nat)) : ArraysKept w.s (w.farRead a ps).1.s := by
  induction ps generalizing w with
  | nil => exact .refl _
  | cons p ps ih =>
    simp only [W.farRead]
    (repeat' split)
    · exact W.exit_arraysKept ..
    · exact (W.exit_arraysKept ..).trans (W.askRead_arraysKept ..)
    · exact ((W.exit_arraysKept ..).trans (W.askRead_arraysKept ..)).trans (ih _)

/-! ## Reads of a cluster's own units (R231, R244) -/

/-- Cluster `k` has read: the other clusters are as before, and so is `k` but for the counts of its shoal words. -/
structure ReadBy (k : Fin 64) (s t : State) : Prop where
  others : ∀ j, j ≠ k → t.clusters.get j = s.clusters.get j
  own : ∃ ce ue, t.clusters.get k = { s.clusters.get k with shoalCe := ce, shoalUe := ue }

theorem ReadBy.of_eq {k : Fin 64} {s t : State} (h : t.clusters = s.clusters) : ReadBy k s t :=
  ⟨fun _ _ => by rw [h], ⟨_, _, by rw [h]⟩⟩

theorem ReadBy.refl (k : Fin 64) (s : State) : ReadBy k s s := .of_eq rfl

theorem ArraysKept.readBy {s t : State} (h : ArraysKept s t) (k : Fin 64) : ReadBy k s t := .of_eq h.1

theorem ReadBy.trans {k : Fin 64} {s t u : State} (h : ReadBy k s t) (g : ReadBy k t u) : ReadBy k s u := by
  obtain ⟨_, _, ht⟩ := h.own
  obtain ⟨ce, ue, hu⟩ := g.own
  exact ⟨fun j hj => (g.others j hj).trans (h.others j hj), ce, ue, by rw [hu, ht]⟩

section
variable {k : Fin 64} {s t : State} (h : ReadBy k s t)
include h

theorem ReadBy.tile : (t.clusters.get k).tile = (s.clusters.get k).tile := by
  obtain ⟨_, _, e⟩ := h.own; rw [e]

theorem ReadBy.issued : (t.clusters.get k).issued = (s.clusters.get k).issued := by
  obtain ⟨_, _, e⟩ := h.own; rw [e]

theorem ReadBy.drain : (t.clusters.get k).drain = (s.clusters.get k).drain := by
  obtain ⟨_, _, e⟩ := h.own; rw [e]

end

theorem State.onCluster_readBy (s : State) (k : Fin 64) (f : ClusterSt → ClusterSt)
    (hf : ∀ y, ∃ ce ue, f y = { y with shoalCe := ce, shoalUe := ue }) : ReadBy k s (s.onCluster k f) := by
  obtain ⟨ce, ue, h⟩ := hf (s.clusters.get k)
  exact ⟨fun j hj => by simp [vmod_get_ne _ _ hj], ce, ue, by simp [h]⟩

theorem W.shoalRead_readBy (w : W) (k : Fin 64) (off n : Nat) : ReadBy k w.s (w.shoalRead k off n).1.s := by
  unfold W.shoalRead
  extract_lets base inside one two env w0 w1 w2 f w3
  have corrected : ReadBy k w.s w1.s := by
    simp only [w1]; split
    · exact .refl k w.s
    · exact (w.s.onCluster_readBy k _ fun y => ⟨_, y.shoalUe, rfl⟩).trans ((State.count_arraysKept ..).readBy k)
  split
  · exact corrected
  · have counted : ReadBy k w.s w2.s := corrected.trans
      ((w1.s.onCluster_readBy k _ fun y => ⟨y.shoalCe, _, rfl⟩).trans ((State.count_arraysKept ..).readBy k))
    have reported : ReadBy k w.s w3.s := counted.trans ((w2.fault_arraysKept (clRegion k) f).readBy k)
    exact reported.trans (.of_eq rfl)

theorem W.read_readBy (w : W) {who : Who} {k : Fin 64} (hk : who.cluster = some k.1) (a n : Nat) :
    ReadBy k w.s (w.read who a n).1.s := by
  simp only [W.read]
  split
  · exact (w.lagoonRead_arraysKept ..).readBy k
  · exact .refl k w.s
  · next j off _ =>
    split
    · next own =>
      obtain rfl : k.1 = j := by simpa [hk] using (Bool.and_eq_true_iff.1 own).1
      rw [fin_self]
      exact w.shoalRead_readBy k off n
    · exact (w.accessFault_arraysKept ..).readBy k
  · exact (w.farRead_arraysKept ..).readBy k
  · exact (w.farRead_arraysKept ..).readBy k
  · exact (w.accessFault_arraysKept ..).readBy k
  · exact (w.accessFault_arraysKept ..).readBy k

/-! ## Operands (R118, R145, R192) -/

theorem W.readCodes_readBy (w : W) {who : Who} {k : Fin 64} (hk : who.cluster = some k.1) (f : Fmt) (x : Src)
    (b1 b2 : Nat) (es : List (Nat × Nat)) : ReadBy k w.s (w.readCodes who f x b1 b2 es).1.s := by
  induction es generalizing w with
  | nil => exact .refl k w.s
  | cons e es ih =>
    simp only [W.readCodes]
    split
    · exact w.read_readBy hk ..
    · exact (w.read_readBy hk ..).trans (ih _)

theorem W.operands_readBy (w : W) (me : Region × SlotNo) (c : Chart) (k : Fin 64) (i t : Nat) (o : List Nat)
    (es : List (Nat × Nat)) : ReadBy k w.s (w.operands me c k.1 i t o es).1.s := by
  simp only [W.operands]
  (repeat' split)
  · exact .refl k w.s
  · exact .refl k w.s
  · exact .refl k w.s
  · exact .refl k w.s
  · exact w.readCodes_readBy (who := w.s.clusterUnit me k.1 t) rfl ..
  · exact w.readCodes_readBy (who := w.s.clusterUnit me k.1 t) rfl ..

/-- What follows a read adds only reads. -/
theorem gotThen_readBy {α β : Type} {k : Fin 64} {s : State} {x : W × Got α} {f : W → α → W × Got β}
    (hx : ReadBy k s x.1.s) (hf : ∀ w a, ReadBy k w.s (f w a).1.s) : ReadBy k s (gotThen x f).1.s := by
  simp only [gotThen]; split
  · exact hx.trans (hf _ _)
  · exact hx
  · exact hx

theorem W.biases_readBy (w : W) (me : Region × SlotNo) (c : Chart) (k : Fin 64) (t : Nat) (g : TileGeom) :
    ReadBy k w.s (w.biases me c k.1 t g).1.s := by
  simp only [W.biases]; split
  · exact .refl k w.s
  · exact w.operands_readBy ..

theorem W.epiInputs_readBy (w : W) (me : Region × SlotNo) (c : Chart) (k : Fin 64) (p : Promo) :
    ReadBy k w.s (w.epiInputs me c k.1 p).1.s := by
  unfold W.epiInputs
  extract_lets g o strict rs
  refine gotThen_readBy ?rowScale fun w rs => ?_
  case rowScale =>
    simp only [rs]; split
    · exact w.operands_readBy ..
    · exact .refl k w.s
  extract_lets cs
  refine gotThen_readBy ?colScales fun w cs => ?_
  case colScales =>
    simp only [cs]; split
    · exact w.operands_readBy ..
    · exact .refl k w.s
  extract_lets bs
  refine gotThen_readBy ?biases fun w bs => .refl k w.s
  case biases =>
    simp only [bs]; split
    · exact .refl k w.s
    · exact w.biases_readBy ..

theorem W.edge_readBy (w : W) (me : Region × SlotNo) (c : Chart) (mode : Nat) (k : Fin 64) (t : Nat) (g : TileGeom)
    (side step : Nat) : ReadBy k w.s (w.edge me c mode k.1 t g side step).1.s := by
  unfold W.edge
  extract_lets n lo a o coord idx strict flush f weights
  split
  · exact .refl k w.s
  refine gotThen_readBy (w.operands_readBy ..) fun w codes => ?_
  extract_lets vals
  refine gotThen_readBy ?values fun w vs => ?scales
  case values =>
    simp only [vals]
    (repeat' split)
    · exact gotThen_readBy (w.operands_readBy ..) fun w _ => .refl k w.s
    · exact .refl k w.s
    · exact gotThen_readBy (w.operands_readBy ..) fun w _ => .refl k w.s
    · exact .refl k w.s
  case scales =>
    (repeat' split)
    · exact gotThen_readBy (w.operands_readBy ..) fun w _ => .refl k w.s
    · exact .refl k w.s
    · exact gotThen_readBy (w.operands_readBy ..) fun w _ => .refl k w.s
    · exact .refl k w.s

end Sys2Proof.Machine
end

section
/-! PROOF. Steps and chunks of an array, and the tiles that it takes up (R88-R99, R119, R143). -/

namespace Sys2Proof.Machine

/-! ## What groups and counts leave of the clusters -/

@[simp] theorem State.onGroup_clusters (s : State) (me : Region × SlotNo) (g : Nat) (f : Group → Group) :
    (s.onGroup me g f).clusters = s.clusters := (rfl)

@[simp] theorem State.beginPass_clusters (s : State) (me : Region × SlotNo) (g t : Nat) :
    (s.beginPass me g t).clusters = s.clusters := (rfl)

@[simp] theorem State.endPass_clusters (s : State) (me : Region × SlotNo) (g t : Nat) :
    (s.endPass me g t).clusters = s.clusters := (rfl)

@[simp] theorem State.countFlags_clusters (s : State) (longsum subflush nonfinite range : Bool) :
    (s.countFlags longsum subflush nonfinite range).clusters = s.clusters := (rfl)

@[simp] theorem State.settleTiles_clusters (s : State) (me : Region × SlotNo) (g : Nat) :
    (s.settleTiles me g).clusters = s.clusters := by
  simp only [State.settleTiles]; split <;> rfl

@[simp] theorem State.waitedCc_clusters (s : State) (k : Fin 64) (n : Nat) : (s.waitedCc k n).clusters =
    vmod s.clusters k fun y => { y with waitCc := y.waitCc + BitVec.ofNat 64 n } := (rfl)

/-- An array at work has met no fault (R145). -/
theorem State.fault_of_atWork {s : State} {k : Fin 64} {x : (Region × SlotNo) × Chart × Position}
    (h : s.atWork k = some x) : (s.clusters.get k).fault = none := by
  simp only [State.atWork] at h
  split at h
  · cases h
  · next idle =>
    simp only [Bool.or_eq_true, not_or] at idle
    simpa using idle.2

/-! ## A step (R88-R92, R119) -/

/-- Both edges of a tile's next step. -/
def W.edges (w : W) (me : Region × SlotNo) (ch : Chart) (k : Fin 64) (t : Tile) :
    W × Got (List Entry × List Entry) :=
  let mode := (w.s.clusters.get k).mode.toNat
  gotThen (w.edge me ch mode k.1 t.index t.geom 0 t.k) fun w as =>
    gotThen (w.edge me ch mode k.1 t.index t.geom 1 t.k) fun w bs => (w, .got (as, bs))

/-- What a step does once it is settled which tile is in pass. -/
def W.stream (w : W) (me : Region × SlotNo) (ch : Chart) (k : Fin 64) (n : Nat) : State :=
  match (w.s.clusters.get k).tile with
  | none => w.s
  | some t =>
    if t.full ∨ (w.s.clusters.get k).fault.isSome then w.s
    else
      let x := (w.on (·.waitedCc k n)).edges me ch k t
      match x.2 with
      | .wait => x.1.s
      | .fault cause => x.1.s.onCluster k fun y => { y with fault := some (t.index, cause) }
      | .got ab => x.1.s.onCluster k fun y =>
        { y with tile := some (t.take (chartMode ch) (keptEdge ab.1) (keptEdge ab.2)) }

theorem exec_arrayStep {r : Region} {c : Cluster} {s : State} {me : Region × SlotNo} {ch : Chart} {q : Position}
    (h : s.atWork (clIdx r c) = some (me, ch, q)) (n : Nat) (e : Env) : exec (.arrayStep r c n e) s =
      .next ((if (s.clusters.get (clIdx r c)).tile.isNone then W.takeUp ⟨s, e⟩ me ch (clIdx r c) q else ⟨s, e⟩).stream
        me ch (clIdx r c) n) := by
  simp only [exec, execArrayStep, h, W.stream]
  generalize (if (s.clusters.get (clIdx r c)).tile.isNone then _ else _ : W) = w
  cases (w.s.clusters.get (clIdx r c)).tile with
  | none => rfl
  | some t =>
    simp only [W.edges]
    split
    · rfl
    · generalize gotThen _ _ = x
      obtain ⟨u, _ | _ | _⟩ := x <;> rfl

theorem W.edges_readBy (w : W) (me : Region × SlotNo) (ch : Chart) (k : Fin 64) (t : Tile) :
    ReadBy k w.s (w.edges me ch k t).1.s :=
  gotThen_readBy (w.edge_readBy ..) fun _ _ => gotThen_readBy (W.edge_readBy ..) fun w _ => .refl k w.s

section
variable {w : W} {me : Region × SlotNo} {ch : Chart} {k : Fin 64} {n : Nat} {t : Tile}
  (ht : (w.s.clusters.get k).tile = some t)

theorem W.stream_none (h : (w.s.clusters.get k).tile = none) : w.stream me ch k n = w.s := by
  simp [W.stream, h]

include ht

theorem W.stream_full (h : t.full = true) : w.stream me ch k n = w.s := by
  simp [W.stream, ht, h]

theorem W.stream_read (h : t.full = false) (hf : (w.s.clusters.get k).fault = none) : w.stream me ch k n =
    match ((w.on (·.waitedCc k n)).edges me ch k t) with
    | (u, .wait) => u.s
    | (u, .fault cause) => u.s.onCluster k fun y => { y with fault := some (t.index, cause) }
    | (u, .got ab) => u.s.onCluster k fun y =>
      { y with tile := some (t.take (chartMode ch) (keptEdge ab.1) (keptEdge ab.2)) } := by
  simp only [W.stream, ht, h, hf]
  generalize (w.on (·.waitedCc k n)).edges me ch k t = x
  obtain ⟨u, _ | _ | _⟩ := x <;> rfl

/-- A step leaves the queue of tiles, and the index of the tile in pass. -/
theorem W.stream_keeps_index : ((w.stream me ch k n).clusters.get k).issued = (w.s.clusters.get k).issued ∧
    ((w.stream me ch k n).clusters.get k).tile.map (·.index) = some t.index := by
  have read := W.edges_readBy (w.on (·.waitedCc k n)) me ch k t
  have tile := read.tile
  have issued := read.issued
  simp only [W.on_s, State.waitedCc_clusters, vmod_get_self, ht] at tile issued
  simp only [W.stream, ht]
  (repeat' split)
  · simp [ht]
  · simp [tile, issued]
  · simp [tile, issued]
  · simp [issued, Tile.take]

end

/-! ## The cells after a step (R88, R89, R140) -/

theorem getElem?_pairs {α β : Type} {as : List α} {bs : List β} {i j : Nat} {a : α} {b : β} (ha : as[i]? = some a)
    (hb : bs[j]? = some b) : (as.flatMap fun x => bs.map fun y => (x, y))[i * bs.length + j]? = some (a, b) := by
  have hj : j < bs.length := (List.getElem?_eq_some_iff.1 hb).1
  induction as generalizing i with
  | nil => simp at ha
  | cons x xs ih =>
    cases i with
    | zero =>
      obtain rfl : x = a := by simpa using ha
      rw [List.flatMap_cons, List.getElem?_append_left (by simpa using hj)]
      simp [hb]
    | succ i =>
      rw [List.flatMap_cons, List.getElem?_append_right (by simp [Nat.succ_mul]; omega)]
      simpa [Nat.succ_mul, Nat.add_right_comm _ bs.length j] using ih (by simpa using ha)

theorem keptEdge_length {es : List Entry} {g : TileGeom} (h : es.length = g.nv) (hn : g.nv ≤ 128) :
    (keptEdge es).length = g.keptCols := by
  simp only [keptEdge, TileGeom.keptCols]
  split
  · simp; omega
  · omega

theorem Tile.take_cell (md : NumMode) (t : Tile) {as bs : List Entry} {i j : Nat} {a b : Entry} {z : Cell}
    (ha : as[i]? = some a) (hb : bs[j]? = some b) (hz : t.cells[i * bs.length + j]? = some z) :
    (t.take md as bs).cells[i * bs.length + j]? = some (z.step md (md.pairs.getD t.pair (1, 1)) a b) := by
  have cell := List.getElem?_zip_eq_some (z := (z, a, b)).2 ⟨hz, getElem?_pairs ha hb⟩
  simp only [Tile.take, List.getElem?_map, cell, Option.map_some]

theorem Tile.take_full (md : NumMode) (t : Tile) (as bs : List Entry) : (t.take md as bs).full = true ↔
    (t.k + 1 - t.block) % 4096 = 0 ∨ t.k + 1 = min (t.block + 65536) t.kEnd := by
  simp [Tile.take]

/-! ## The end of a chunk (R92, R93, R99, R123) -/

/-- A chunk of `cc` cycles counted, after `n` cycles of waiting. -/
def State.chunkPassed (s : State) (k : Fin 64) (n cc : Nat) : State :=
  (s.waitedCc k n).onCluster k fun y => { y with passCc := y.passCc + BitVec.ofNat 64 cc }

@[simp] theorem State.chunkPassed_mem (s : State) (k : Fin 64) (n cc : Nat) :
    (s.chunkPassed k n cc).mem = s.mem := (rfl)

theorem State.chunkPassed_own (s : State) (k : Fin 64) (n cc : Nat) : (s.chunkPassed k n cc).clusters.get k =
    { s.clusters.get k with
      waitCc := (s.clusters.get k).waitCc + BitVec.ofNat 64 n,
      passCc := (s.clusters.get k).passCc + BitVec.ofNat 64 cc } := by
  simp [State.chunkPassed]

theorem State.chunkPassed_others (s : State) {k j : Fin 64} (n cc : Nat) (h : j ≠ k) :
    (s.chunkPassed k n cc).clusters.get j = s.clusters.get j := by
  simp [State.chunkPassed, vmod_get_ne _ _ h]

theorem exec_chunkEnd {r : Region} {c : Cluster} {s : State} {me : Region × SlotNo} {ch : Chart} {q : Position}
    {t : Tile} (h : s.atWork (clIdx r c) = some (me, ch, q)) (ht : (s.clusters.get (clIdx r c)).tile = some t)
    (n : Nat) : exec (.chunkEnd r c n) s =
      if t.full = false ∨ (s.clusters.get (clIdx r c)).promo.isSome = true then .next s
      else
        let last := t.lastChunk (chartMode ch)
        let s1 := s.chunkPassed (clIdx r c) n (chunkCc ch t.chunkSteps)
        let s2 := if last || chartMode ch != .strict then s1.toPromotion me ch (clIdx r c) q t last else s1
        .next (if last then s2
          else s2.onCluster (clIdx r c) fun y => { y with tile := some (t.next (chartMode ch)) }) := by
  simp only [exec, execChunkEnd, h, ht, State.chunkPassed]
  cases t.full <;> simp

/-- The promotion that a tile's cells begin. -/
def Tile.promotion (c : Chart) (t : Tile) (last : Bool) : Promo :=
  { index := t.index, slot := t.slot, geom := t.geom, row := 0, last := last, shadow := t.cells.map (·.c48),
    accs := t.cells.map (·.acc), longsum := longSum (chartMode c) (kPad t.geom.k), subflush := t.subflush }

theorem State.toPromotion_own (s : State) (me : Region × SlotNo) (c : Chart) (k : Fin 64) (q : Position) (t : Tile)
    (last : Bool) : ∃ b, (s.toPromotion me c k q t last).clusters.get k =
      { s.clusters.get k with
        promo := some (t.promotion c last), bank := b, tile := if last then none else (s.clusters.get k).tile } := by
  cases last <;> exact ⟨_, by simp [State.toPromotion, Tile.promotion]; rfl⟩

theorem State.toPromotion_others (s : State) (me : Region × SlotNo) (c : Chart) {k j : Fin 64} (q : Position) (t : Tile)
    (last : Bool) (h : j ≠ k) : (s.toPromotion me c k q t last).clusters.get j = s.clusters.get j := by
  cases last <;> simp [State.toPromotion, vmod_get_ne _ _ h]

theorem Tile.next_index (md : NumMode) (t : Tile) : (t.next md).index = t.index := by
  simp only [Tile.next]; (repeat' split) <;> rfl

theorem Tile.next_full (md : NumMode) (t : Tile) : (t.next md).full = false := by
  simp only [Tile.next]; (repeat' split) <;> rfl

theorem Tile.next_cells (md : NumMode) (t : Tile) :
    (t.next md).cells = t.cells.map fun x => { x with c48 := IVal.zero } := by
  simp only [Tile.next]; (repeat' split) <;> rfl

/-! ## Taking up a tile (R119, R139, R143) -/

/-- Tile `i` as its pass begins in a mode other than STRICT. -/
def Tile.begun (ch : Chart) (q : Position) (g : TileGeom) (i slot : Nat) : Tile :=
  { index := i, slot := slot, geom := g, kEnd := (posSteps ch q g.k).2, block := (posSteps ch q g.k).1, pair := 0,
    k := (posSteps ch q g.k).1, full := false, subflush := false, cells := freshCells g [] }

section
variable {w : W} {me : Region × SlotNo} {ch : Chart} {k : Fin 64} {q : Position} {i : Nat} {rest : List Nat}
  (hi : (w.s.clusters.get k).issued = i :: rest)
include hi

theorem W.takeUp_waits (h : w.s.mayTake me q.group i = false) : w.takeUp me ch k q = w := by
  simp [W.takeUp, hi, h]

theorem W.takeUp_empty (h : w.s.mayTake me q.group i = true)
    (hg : (tileGeom ch (w.s.inst me.1 me.2).bounds i q.quad).mv = 0 ∨
      (tileGeom ch (w.s.inst me.1 me.2).bounds i q.quad).nv = 0) :
    w.takeUp me ch k q = w.on (·.emptyTile me k q i) := by
  simp [W.takeUp, hi, h, hg]

/-- Outside STRICT mode a tile with steps to do is put in pass at once, empty and its chunk open. -/
theorem W.takeUp_pass {g : TileGeom} (h : w.s.mayTake me q.group i = true)
    (hg : g = tileGeom ch (w.s.inst me.1 me.2).bounds i q.quad) (hm : g.mv ≠ 0) (hn : g.nv ≠ 0)
    (hs : chartMode ch ≠ .strict) (hk : (posSteps ch q g.k).1 < (posSteps ch q g.k).2) :
    w.takeUp me ch k q = w.on fun s => (s.beginPass me q.group i).onCluster k fun y =>
      { y with issued := y.issued.drop 1, turn := y.turn + 1,
               tile := some (Tile.begun ch q g i (ch.turnSlot (w.s.clusters.get k).turn)) } := by
  subst hg
  simp only [W.takeUp, hi, h, hm, hn, hs, hk]
  rfl

end

theorem State.emptyTile_own (s : State) (me : Region × SlotNo) (k : Fin 64) (q : Position) (t : Nat) :
    ∃ b, (s.emptyTile me k q t).clusters.get k =
      { s.clusters.get k with
        issued := (s.clusters.get k).issued.drop 1, turn := (s.clusters.get k).turn + 1,
        lastIndex := BitVec.ofNat 64 t, tileStatus := mxStatus false false none, chainIn := b } :=
  ⟨_, by simp [State.emptyTile]; rfl⟩

end Sys2Proof.Machine
end

section
/-! PROOF. Promotion, chains, the epilogue's rows and the end of a drain (R94, R101, R122, R124, R127, R137, R140). -/

namespace Sys2Proof.Machine

/-! ## Totals and the bank (R94, R140) -/

theorem TileGeom.lt_keptRows {g : TileGeom} {row : Nat} (h : row < 128) (hm : row ≤ g.mv) : row < g.keptRows := by
  simp only [TileGeom.keptRows]; omega

theorem Promo.own_length (p : Promo) (bank : List IVal) : (p.own bank).length = p.geom.keptCols := by
  simp [Promo.own]

/-- A row that the bank keeps: the chunk added to its totals. -/
theorem Promo.own_kept (p : Promo) (bank : List IVal) (hm : p.row ≤ p.geom.mv) {j : Nat} (hj : j < p.geom.keptCols) :
    (p.own bank)[j]? = some (totalAdd (bank.getD (p.row * p.geom.keptCols + j) IVal.zero)
      (p.shadow.getD (p.row * p.geom.keptCols + j) IVal.zero)) := by
  simp [Promo.own, Promo.keptRow, hm, hj]

theorem Promo.totals_lone (p : Promo) (own : List IVal) {j : Nat} (hj : j < p.geom.nv) (hn : p.geom.nv ≤ 128) :
    (p.totals own none).getD j IVal.zero = own.getD j IVal.zero := by
  have h128 : j < 128 := by omega
  simp [Promo.totals, h128, Nat.min_eq_left (Nat.le_of_lt hj)]

section
variable {bank xs : List IVal} {row w n : Nat} (hb : bank.length = n * w) (hr : row < n) (hx : xs.length = w)
include hb hr hx

theorem putBankRow_inside {j : Nat} (hj : j < w) : (putBankRow bank w row xs)[row * w + j]? = xs[j]? := by
  have fits : row * w ≤ bank.length := hb ▸ Nat.mul_le_mul_right w (Nat.le_of_lt hr)
  rw [putBankRow, List.append_assoc, List.getElem?_append_right (by simp [fits]), List.length_take_of_le fits,
    Nat.add_sub_cancel_left, List.getElem?_append_left (hx ▸ hj)]

theorem putBankRow_outside {m : Nat} (hm : m < row * w ∨ (row + 1) * w ≤ m) :
    (putBankRow bank w row xs)[m]? = bank[m]? := by
  have fits : row * w ≤ bank.length := hb ▸ Nat.mul_le_mul_right w (Nat.le_of_lt hr)
  rcases hm with hm | hm
  · rw [putBankRow, List.append_assoc, List.getElem?_append_left (by simp; omega), List.getElem?_take_of_lt hm]
  · have front : (bank.take (row * w) ++ xs).length = (row + 1) * w := by simp [fits, hx, Nat.succ_mul]
    rw [putBankRow, List.getElem?_append_right (front ▸ hm), front, List.getElem?_drop, Nat.add_sub_cancel' hm]

end

/-- The bank once the promotion's row is folded in: in STRICT mode, and beyond the rows it keeps, as it was. -/
def Promo.folded (p : Promo) (ch : Chart) (bank : List IVal) : List IVal :=
  if chartMode ch != .strict && p.keptRow then putBankRow bank p.geom.keptCols p.row (p.own bank) else bank

theorem Promo.folded_same (p : Promo) {ch : Chart} (bank : List IVal) (h : chartMode ch = .strict ∨ p.geom.mv < p.row) :
    p.folded ch bank = bank := by
  refine if_neg fun due => ?_
  obtain ⟨hs, hm⟩ := Bool.and_eq_true_iff.1 due
  rcases h with h | h
  · exact bne_iff_ne.1 hs h
  · exact Nat.not_le_of_lt h (of_decide_eq_true hm)

theorem Promo.folded_row (p : Promo) {ch : Chart} (bank : List IVal) (hs : chartMode ch ≠ .strict)
    (hm : p.row ≤ p.geom.mv) : p.folded ch bank = putBankRow bank p.geom.keptCols p.row (p.own bank) := by
  simp [Promo.folded, Promo.keptRow, hs, hm]

/-- The totals that a row of the last chunk carries where no running sum arrives. -/
def Promo.lone (p : Promo) (ch : Chart) (bank : List IVal) : List IVal :=
  if chartMode ch != .strict then p.totals (p.own bank) none else []

theorem Promo.lone_total (p : Promo) {ch : Chart} (bank : List IVal) (hs : chartMode ch ≠ .strict)
    (hr : p.row < p.geom.mv) (hn : p.geom.nv ≤ 128) {j : Nat} (hj : j < p.geom.nv) :
    (p.lone ch bank).getD j IVal.zero = totalAdd (bank.getD (p.row * p.geom.keptCols + j) IVal.zero)
      (p.shadow.getD (p.row * p.geom.keptCols + j) IVal.zero) := by
  have kept : j < p.geom.keptCols := by simp only [TileGeom.keptCols]; omega
  rw [Promo.lone, if_pos (by simp [hs]), p.totals_lone _ hj hn, List.getD_eq_getElem?_getD,
    p.own_kept bank (Nat.le_of_lt hr) kept]
  rfl

/-! ## The end of a row (R124) -/

theorem State.nextRow_own (s : State) (k : Fin 64) (p : Promo) (bank : List IVal) :
    (s.nextRow k p bank).clusters.get k =
      if p.row < 127 then { s.clusters.get k with promo := some { p with row := p.row + 1 }, bank := bank }
      else { s.clusters.get k with promo := none, bank := if p.last then [] else bank } := by
  simp [State.nextRow]

theorem State.nextRow_promo (s : State) (k : Fin 64) (p : Promo) (bank : List IVal) :
    ((s.nextRow k p bank).clusters.get k).promo = if p.row < 127 then some { p with row := p.row + 1 } else none := by
  rw [State.nextRow_own]; split <;> rfl

/-- Before the last chunk the bank stays filled. -/
theorem State.nextRow_bank (s : State) (k : Fin 64) {p : Promo} (hl : p.last = false) (bank : List IVal) :
    ((s.nextRow k p bank).clusters.get k).bank = bank := by
  rw [State.nextRow_own]; split <;> simp [hl]

/-- The row of a last chunk ends: with row 127 the tile leaves the inbox. -/
def State.rowEnds (s : State) (k : Fin 64) (p : Promo) (bank : List IVal) : State :=
  if p.last && p.row == 127 then
    (s.nextRow k p bank).onCluster k fun y => { y with chainIn := y.chainIn.forget p.index }
  else s.nextRow k p bank

@[simp] theorem State.rowEnds_mem (s : State) (k : Fin 64) (p : Promo) (bank : List IVal) :
    (s.rowEnds k p bank).mem = s.mem := by
  simp only [State.rowEnds]; split <;> simp

theorem State.rowEnds_own (s : State) (k : Fin 64) (p : Promo) (bank : List IVal) :
    ∃ b i, (s.rowEnds k p bank).clusters.get k = { s.clusters.get k with
      promo := if p.row < 127 then some { p with row := p.row + 1 } else none, bank := b, chainIn := i } := by
  simp only [State.rowEnds]
  by_cases h : p.row < 127 <;> split <;> simp only [State.onCluster_clusters, vmod_get_self, State.nextRow_own, h] <;>
    exact ⟨_, _, rfl⟩

/-! ## Rows sent along a chain (R122, R212, R293) -/

/-- Of every cluster only the inbox of running sums may differ. -/
def InboxOnly (s t : State) : Prop := ∀ k, ∃ b, t.clusters.get k = { s.clusters.get k with chainIn := b }

theorem InboxOnly.of_eq {s t : State} (h : t.clusters = s.clusters) : InboxOnly s t := fun _ => ⟨_, by rw [h]⟩

theorem InboxOnly.trans {s t u : State} (h : InboxOnly s t) (g : InboxOnly t u) : InboxOnly s u := by
  intro k
  obtain ⟨_, ht⟩ := h k
  obtain ⟨b, hu⟩ := g k
  exact ⟨b, by rw [hu, ht]⟩

theorem LinkOnly.clusters {s t : State} (h : LinkOnly s t) : t.clusters = s.clusters := by rw [h]

theorem State.wakeCluster_clusters (s : State) (k : Nat) : (s.wakeCluster k).clusters = s.clusters :=
  (s.wakeCluster_arraysKept k).1

theorem State.onCluster_inboxOnly (s : State) (k : Fin 64) (f : ClusterSt → ClusterSt)
    (hf : ∀ y, ∃ b, f y = { y with chainIn := b }) : InboxOnly s (s.onCluster k f) := by
  intro j
  by_cases h : j = k
  · subst h
    obtain ⟨b, hb⟩ := hf (s.clusters.get j)
    exact ⟨b, by simp [hb]⟩
  · exact ⟨_, by rw [State.onCluster_clusters, vmod_get_ne _ _ h]⟩

theorem ClusterSt.takeRow_inbox (y : ClusterSt) (row part : Nat) (recs : List IVal) :
    ∃ b, y.takeRow row part recs = { y with chainIn := b } := by
  simp only [ClusterSt.takeRow]
  (repeat' split) <;> exact ⟨_, rfl⟩

theorem State.sendRow_inboxOnly (s : State) (q : Position) (row : Nat) (recs : List IVal) :
    InboxOnly s (s.sendRow q row recs) := by
  refine foldl_keeps (InboxOnly s) _ (fun t j h => h.trans ?_) _ s (.of_eq rfl)
  dsimp only
  split
  · exact (t.onCluster_inboxOnly _ _ fun y => y.takeRow_inbox ..).trans (.of_eq (State.wakeCluster_clusters ..))
  · split
    · exact .of_eq (State.sendFlit_linkOnly ..).clusters
    · exact .of_eq rfl

/-- A trailer to a position elsewhere touches no cluster here. -/
theorem State.sendTrailer_away (s : State) {q : Position} (h : q.chiplet ≠ s.pk.id.toNat) (t : Nat) (flags : BitVec 8) :
    LinkOnly s (s.sendTrailer q t flags) := by
  simp only [State.sendTrailer, if_neg h]
  split
  · exact State.sendFlit_linkOnly ..
  · exact .refl s

theorem State.sendTrailer_inboxOnly (s : State) (q : Position) (t : Nat) (flags : BitVec 8) :
    InboxOnly s (s.sendTrailer q t flags) := by
  by_cases h : q.chiplet = s.pk.id.toNat
  · simp only [State.sendTrailer, if_pos h]
    exact (s.onCluster_inboxOnly _ _ fun y => ⟨_, rfl⟩).trans (.of_eq (State.wakeCluster_clusters ..))
  · exact .of_eq (s.sendTrailer_away h t flags).clusters

/-- After row 127 a position that has sent its rows on has completed the tile (R137). -/
theorem State.chainRow_status (s : State) (k : Fin 64) (next : Position) (p : Promo) (tot : List IVal)
    (h : p.row = 127) : ((s.chainRow k next p tot).clusters.get k).lastIndex = BitVec.ofNat 64 p.index ∧
      ((s.chainRow k next p tot).clusters.get k).tileStatus = mxStatus p.longsum p.subflush none := by
  simp [State.chainRow, h]

/-! ## Rows of the epilogue (R127, R134) -/

theorem State.drainRow_drain (s : State) (c : Chart) (k : Fin 64) (q : Position) (p : Promo) (es : List EpiOut) :
    ∃ d, ((s.drainRow c k q p es).clusters.get k).drain = some d ∧
      d.rows = ((s.clusters.get k).drain.map (·.rows)).getD [] ++ [es.map (·.code)] := by
  simp only [State.drainRow]
  cases (s.clusters.get k).drain <;> split <;> exact ⟨_, by simp; rfl, rfl⟩

theorem State.mergeFlags_drain (s : State) (k : Fin 64) (p : Promo) {d : Drain}
    (h : (s.clusters.get k).drain = some d) :
    ∃ d', ((s.mergeFlags k p).clusters.get k).drain = some d' ∧ d'.rows = d.rows := by
  simp only [State.mergeFlags, State.onCluster_clusters, vmod_get_self, h, Option.map_some]
  refine ⟨_, rfl, ?_⟩
  split <;> rfl

/-- A row drained: its codes follow those of the rows before, and the promotion moves on. -/
theorem State.rowDrained (s : State) (c : Chart) (k : Fin 64) (q : Position) (p : Promo) (es : List EpiOut)
    (bank : List IVal) :
    ∃ d, ((((s.drainRow c k q p es).mergeFlags k p).rowEnds k p bank).clusters.get k).drain = some d ∧
      d.rows = ((s.clusters.get k).drain.map (·.rows)).getD [] ++ [es.map (·.code)] ∧
      ((((s.drainRow c k q p es).mergeFlags k p).rowEnds k p bank).clusters.get k).promo =
        if p.row < 127 then some { p with row := p.row + 1 } else none := by
  obtain ⟨d, hd, rows⟩ := s.drainRow_drain c k q p es
  obtain ⟨d', hd', rows'⟩ := State.mergeFlags_drain _ k p hd
  obtain ⟨_, _, own⟩ := ((s.drainRow c k q p es).mergeFlags k p).rowEnds_own k p bank
  exact ⟨d', by rw [own]; exact hd', rows'.trans rows, by rw [own]⟩

/-- Element `j` of a row as the epilogue makes it: in STRICT mode of the accumulator, else of the total. -/
def Promo.element (p : Promo) (ch : Chart) (cfg : EpiCfg) (tot : List IVal) (i : EpiIn) (j : Nat) : EpiOut :=
  if chartMode ch == .strict then epiElementStrict cfg i (p.accs.getD (p.row * p.geom.keptCols + j) 0).toNat
  else epiElement cfg i (tot.getD j IVal.zero)

/-- The elements of a row under the inputs of its columns. -/
def Promo.elements (p : Promo) (ch : Chart) (cfg : EpiCfg) (tot : List IVal) (ins : List EpiIn) : List EpiOut :=
  ins.zipIdx.map fun i => p.element ch cfg tot i.1 i.2

theorem Promo.elements_code (p : Promo) (ch : Chart) (cfg : EpiCfg) (tot : List IVal) {ins : List EpiIn} {i : EpiIn}
    {j : Nat} (h : ins[j]? = some i) :
    ((p.elements ch cfg tot ins).map (·.code))[j]? = some (p.element ch cfg tot i j).code := by
  simp [Promo.elements, h]

/-! ## The command (R124) -/

/-- Without a running sum to fold in, a promotion does not wait. -/
theorem Promo.running_lone (p : Promo) (b : ChainBuf) {chained : Bool} (h : p.last = false ∨ chained = false) :
    p.running b chained = .got (none, p) := by
  rcases h with h | h <;> simp [Promo.running, h]

section
variable {r : Region} {c : Cluster} {s : State} {me : Region × SlotNo} {ch : Chart} {q : Position} {p : Promo}
  (e : Env) (h : s.atWork (clIdx r c) = some (me, ch, q)) (hp : (s.clusters.get (clIdx r c)).promo = some p)
include h hp

theorem exec_promotionRow_waits (hw : p.running (s.clusters.get (clIdx r c)).chainIn (q.chainPos != 0) = .wait) :
    exec (.promotionRow r c e) s = .next s := by
  simp [exec, execPromotionRow, h, hp, hw]

theorem exec_promotionRow_chunk (hl : p.last = false) : exec (.promotionRow r c e) s =
    .next (s.nextRow (clIdx r c) p (p.folded ch (s.clusters.get (clIdx r c)).bank)) := by
  simp only [exec, execPromotionRow, h, hp, p.running_lone _ (.inl hl), hl, Promo.folded]
  cases chartMode ch != .strict <;> simp

section
variable (hl : p.last = true) (hc : q.chainPos = 0)
include hl hc

/-- The row of a last chunk at the head of a chain, or at a lone array. -/
theorem exec_promotionRow_last : exec (.promotionRow r c e) s =
    match nextPosition ch q with
    | some next =>
      if p.row = 0 && s.outboxHolds next then .next s
      else .next ((s.chainRow (clIdx r c) next p (p.lone ch (s.clusters.get (clIdx r c)).bank)).rowEnds (clIdx r c) p
        (p.folded ch (s.clusters.get (clIdx r c)).bank))
    | none =>
      if p.row = 0 && !(s.clusters.get (clIdx r c)).drainRoom ch p then .next s
      else if p.geom.mv ≤ p.row then .next (((s.drainRow ch (clIdx r c) q p []).mergeFlags (clIdx r c) p).rowEnds
        (clIdx r c) p (p.folded ch (s.clusters.get (clIdx r c)).bank))
      else match (⟨s, e⟩ : W).epiInputs me ch (clIdx r c).1 p with
        | (u, .wait) => .next u.s
        | (u, .fault cause) => .next (u.s.onCluster (clIdx r c) fun y => { y with fault := some (p.index, cause) })
        | (u, .got ins) => .next (((u.s.drainRow ch (clIdx r c) q p (p.elements ch
            ⟨chartMode ch == .strict, modeFlush ch.mode, s.actOf ch, outFmtOf ch⟩
            (p.lone ch (s.clusters.get (clIdx r c)).bank) ins)).mergeFlags (clIdx r c) p).rowEnds (clIdx r c) p
            (p.folded ch (s.clusters.get (clIdx r c)).bank)) := by
  have run := p.running_lone (s.clusters.get (clIdx r c)).chainIn (chained := q.chainPos != 0) (.inr (by simp [hc]))
  simp only [exec, execPromotionRow, h, hp, run, Promo.folded, Promo.lone, State.rowEnds, Promo.elements, Promo.element]
  rw [if_neg (by simp [hl])]
  cases nextPosition ch q with
  | some next => cases chartMode ch != .strict <;> simp
  | none =>
    generalize (⟨s, e⟩ : W).epiInputs me ch (clIdx r c).1 p = x
    obtain ⟨u, _ | _ | _⟩ := x <;> cases chartMode ch != .strict <;> simp

end

end

/-! ## The end of a drain (R134, R137, R155, R209) -/

theorem exec_drainComplete {r : Region} {c : Cluster} {s : State} {me : Region × SlotNo} {ch : Chart} {q : Position}
    {d : Drain} (h : s.atWork (clIdx r c) = some (me, ch, q)) (hd : (s.clusters.get (clIdx r c)).drain = some d) :
    exec (.drainComplete r c) s =
      if d.rows.length < 128 then .next s
      else
        let s1 := s.onCluster (clIdx r c) fun y =>
          ({ y with drain := none, lastIndex := BitVec.ofNat 64 d.index,
                    tileStatus := mxStatus d.longsum d.subflush d.nf } : ClusterSt).deliver ch d
        let s2 := if epiDest ch.epi then s1 else s1.countFlags d.longsum d.subflush d.nf.isSome false
        .next (s2.settleTiles me q.group) := by
  simp only [exec, execDrainComplete, h, hd]

/-- A tile delivered goes to the queue or to an output slot, and nowhere else. -/
theorem ClusterSt.deliver_keeps (y : ClusterSt) (c : Chart) (d : Drain) : (y.deliver c d).drain = y.drain ∧
    (y.deliver c d).lastIndex = y.lastIndex ∧ (y.deliver c d).tileStatus = y.tileStatus := by
  simp only [ClusterSt.deliver]; (repeat' split) <;> exact ⟨rfl, rfl, rfl⟩

theorem ClusterSt.deliver_queue (y : ClusterSt) {c : Chart} (d : Drain) (h : epiDest c.epi = true) :
    (y.deliver c d).outs = y.outs ∧ ∃ z : QEntry, (y.deliver c d).queue = y.queue ++ [z] ∧ z.index = d.index ∧
      z.rows = d.rows ∧ z.aborted = false := by
  simp only [ClusterSt.deliver, h]
  exact ⟨rfl, _, rfl, rfl, rfl, rfl⟩

theorem ClusterSt.deliver_out (y : ClusterSt) {c : Chart} (d : Drain) (h : epiDest c.epi = false) :
    (y.deliver c d).queue = y.queue ∧ (c.writesBack 2 = true → ∃ z : OutSlot, (y.deliver c d).outs = y.outs ++ [z] ∧
      z.arg = 2 ∧ z.index = d.index ∧ z.poisoned = false ∧ z.nf = d.nf) := by
  simp only [ClusterSt.deliver, h]
  cases c.writesBack 2
  · exact ⟨rfl, nofun⟩
  · exact ⟨rfl, fun _ => ⟨_, rfl, rfl, rfl, rfl, rfl⟩⟩

/-- The cluster once tile `d` has left the drain (R137). -/
def ClusterSt.drained (y : ClusterSt) (c : Chart) (d : Drain) : ClusterSt :=
  ({ y with drain := none, lastIndex := BitVec.ofNat 64 d.index,
            tileStatus := mxStatus d.longsum d.subflush d.nf } : ClusterSt).deliver c d

theorem exec_drainComplete_drained {r : Region} {c : Cluster} {s : State} {me : Region × SlotNo} {ch : Chart}
    {q : Position} {d : Drain} (h : s.atWork (clIdx r c) = some (me, ch, q))
    (hd : (s.clusters.get (clIdx r c)).drain = some d) (hl : 128 ≤ d.rows.length) :
    ∃ x : State, exec (.drainComplete r c) s = .next x ∧ x.mem = s.mem ∧
      x.clusters.get (clIdx r c) = (s.clusters.get (clIdx r c)).drained ch d := by
  refine ⟨_, by rw [exec_drainComplete h hd, if_neg (by omega)], ?_⟩
  cases epiDest ch.epi <;> simp [ClusterSt.drained]

end Sys2Proof.Machine
end

section
/-! PROOF. Aborts: a tile discarded at the cluster and along its group, named for redo, and its `Inst` faulted
(R145-R147, R369, R371). -/

namespace Sys2Proof.Machine

theorem mem_setInsert_self (x : Nat) (xs : List Nat) : x ∈ setInsert x xs := by
  induction xs with
  | nil => simp [setInsert]
  | cons y ys ih => simp only [setInsert]; (repeat' split) <;> simp_all

/-! ## Discarding (R145, R146) -/

/-- Nothing of a tile discarded is left in pass, in promotion, in the drain or in an output slot. -/
theorem ClusterSt.discard_clears (y : ClusterSt) (t : Nat) (cause : BitVec 3) :
    (∀ z ∈ (y.discard t cause).tile, z.index ≠ t) ∧ (∀ z ∈ (y.discard t cause).promo, z.index ≠ t) ∧
      (∀ z ∈ (y.discard t cause).drain, z.index ≠ t) ∧ ∀ z ∈ (y.discard t cause).outs, z.index ≠ t := by
  refine ⟨fun z h => ?_, fun z h => ?_, fun z h => ?_, fun z h => ?_⟩
  · exact bne_iff_ne.1 (Option.mem_filter_iff.1 h).2
  · exact bne_iff_ne.1 (Option.mem_filter_iff.1 h).2
  · exact bne_iff_ne.1 (Option.mem_filter_iff.1 h).2
  · exact bne_iff_ne.1 (List.mem_filter.1 h).2

theorem State.discardAt_own (s : State) (c : Chart) {k : Fin 64} {t : Nat} (cause : BitVec 3)
    (h : (s.clusters.get k).doneWith t = false) :
    (s.discardAt c k t cause).clusters.get k = (s.clusters.get k).discard t cause := by
  simp only [State.discardAt, h, Bool.false_eq_true, if_false]
  split <;> simp

theorem State.discardAt_others (s : State) (c : Chart) {k j : Fin 64} (t : Nat) (cause : BitVec 3) (h : k ≠ j) :
    (s.discardAt c j t cause).clusters.get k = s.clusters.get k := by
  simp only [State.discardAt]
  (repeat' split) <;> simp [vmod_get_ne _ _ h]

theorem State.discardAt_regions (s : State) (c : Chart) (k : Fin 64) (t : Nat) (cause : BitVec 3) :
    (s.discardAt c k t cause).regions = s.regions := by
  simp only [State.discardAt]
  (repeat' split) <;> rfl

theorem State.abortAt_regions (s : State) (c : Chart) (t : Nat) (p : Position) :
    (s.abortAt c t p).regions = s.regions := by
  simp only [State.abortAt]
  split
  · exact s.discardAt_regions ..
  · next away => exact (s.sendTrailer_away away ..).regions

/-- An abort sent to another position leaves the cluster. -/
theorem State.abortAt_others (s : State) (c : Chart) (t : Nat) {p : Position} {k : Fin 64}
    (h : p.chiplet = s.pk.id.toNat → fin 63 (8 * p.region + p.cluster) ≠ k) :
    (s.abortAt c t p).clusters.get k = s.clusters.get k := by
  simp only [State.abortAt]
  split
  · next here =>
    rw [State.onCluster_clusters, vmod_get_ne _ _ (h here).symm, s.discardAt_others c t 5 (h here).symm]
  · next away => rw [(s.sendTrailer_away away ..).clusters]

/-- The part of an abort that discards: at the cluster, and at the positions that it reaches. -/
def State.discardAll (s : State) (c : Chart) (k : Fin 64) (q : Position) (t : Nat) (cause : BitVec 3) : State :=
  (abortReach c s.pk.id.toNat q (cause != 5)).foldl (fun s p => s.abortAt c t p) (s.discardAt c k t cause)

theorem State.discardAll_regions (s : State) (c : Chart) (k : Fin 64) (q : Position) (t : Nat) (cause : BitVec 3) :
    (s.discardAll c k q t cause).regions = s.regions :=
  foldl_keeps (fun u : State => u.regions = s.regions) _ (fun u p h => (u.abortAt_regions c t p).trans h) _ _
    (s.discardAt_regions c k t cause)

theorem State.foldl_abortAt_others (c : Chart) (t : Nat) (k : Fin 64) (ps : List Position) (s : State)
    (h : ∀ p ∈ ps, p.chiplet = s.pk.id.toNat → fin 63 (8 * p.region + p.cluster) ≠ k) :
    (ps.foldl (fun s p => s.abortAt c t p) s).clusters.get k = s.clusters.get k := by
  induction ps generalizing s with
  | nil => rfl
  | cons p ps ih =>
    rw [List.foldl_cons, ih _ fun x hx => by simpa using h x (List.mem_cons_of_mem p hx),
      s.abortAt_others c t (h p List.mem_cons_self)]

theorem State.discardAll_own (s : State) (c : Chart) {k : Fin 64} {q : Position} {t : Nat} {cause : BitVec 3}
    (hd : (s.clusters.get k).doneWith t = false)
    (hr : ∀ p ∈ abortReach c s.pk.id.toNat q (cause != 5), p.chiplet = s.pk.id.toNat →
      fin 63 (8 * p.region + p.cluster) ≠ k) :
    (s.discardAll c k q t cause).clusters.get k = (s.clusters.get k).discard t cause := by
  rw [State.discardAll, State.foldl_abortAt_others _ _ _ _ _ (by simpa using hr), s.discardAt_own c cause hd]

/-! ## The tile named for redo, and the run faulted (R147, R371) -/

/-- A tile that its group owes again, and the first such tile of the run. -/
def State.oweTile (s : State) (me : Region × SlotNo) (g t : Nat) : State :=
  ((s.loseTile me g t).onGroup me g fun y =>
      { y with ahead := y.ahead.filter (· != t), inPass := y.inPass.filter (· != t) }).onInst me.1 me.2 fun i =>
    { i with firstTile := some (match i.firstTile with
        | some x => min x t
        | none => t) }

/-- A group owes a tile and holds it no more, neither ahead nor in pass. -/
def Group.owes (x : Group) (t : Nat) : Prop := t ∈ x.lost ∧ x.ahead ≠ some t ∧ x.inPass ≠ some t

theorem State.inst_onGroup (s : State) (me : Region × SlotNo) (g : Nat) (f : Group → Group) :
    (s.onGroup me g f).inst me.1 me.2 =
      { s.inst me.1 me.2 with groups := (s.inst me.1 me.2).groups.map fun x => if x.g = g then f x else x } := by
  simp [State.onGroup]

theorem State.oweTile_owes (s : State) (me : Region × SlotNo) (g t : Nat) :
    ∀ x ∈ ((s.oweTile me g t).inst me.1 me.2).groups, x.g = g → x.owes t := by
  intro x hx hg
  simp only [State.oweTile, State.loseTile, State.inst_onInst_self, State.inst_onGroup, List.map_map,
    List.mem_map, Function.comp] at hx
  obtain ⟨y, -, rfl⟩ := hx
  by_cases hy : y.g = g
  · simp [hy, Group.owes, mem_setInsert_self, Option.filter_eq_some_iff]
  · simp [hy] at hg

theorem State.oweTile_clusters (s : State) (me : Region × SlotNo) (g t : Nat) :
    (s.oweTile me g t).clusters = s.clusters := (rfl)

theorem State.oweTile_inst (s : State) (me : Region × SlotNo) (g t : Nat) :
    ((s.oweTile me g t).inst me.1 me.2).st = (s.inst me.1 me.2).st ∧
      ((s.oweTile me g t).inst me.1 me.2).faulting = (s.inst me.1 me.2).faulting := by
  simp [State.oweTile, State.loseTile, State.inst_onGroup]

theorem State.tell_keeps (s : State) (r : Region) (k : SlotNo) (w : InstWord) :
    (s.tell r k w).clusters = s.clusters ∧ (s.tell r k w).regions = s.regions := by
  simp only [State.tell]; split <;> exact ⟨rfl, rfl⟩

theorem State.inst_tell (s : State) (r : Region) (k : SlotNo) (w : InstWord) (i : Region) (j : SlotNo) :
    (s.tell r k w).inst i j = s.inst i j := by
  simp only [State.inst, (s.tell_keeps r k w).2]

theorem State.faultInst_clusters (s : State) (r : Region) (k : SlotNo) (reason : BitVec 4) :
    (s.faultInst r k reason).clusters = s.clusters := by
  simp only [State.faultInst]; split
  · exact (State.tell_keeps ..).1
  · rfl

theorem State.faultInst_groups (s : State) (r : Region) (k : SlotNo) (reason : BitVec 4) :
    ((s.faultInst r k reason).inst r k).groups = (s.inst r k).groups := by
  simp only [State.faultInst]; split
  · simp [State.inst_tell]
  · rfl

theorem State.faultInst_faulting (s : State) {r : Region} {k : SlotNo} (reason : BitVec 4)
    (hr : (s.inst r k).st = .running) (h0 : (s.inst r k).faulting = 0) :
    ((s.faultInst r k reason).inst r k).faulting = reason := by
  simp [State.faultInst, hr, h0, State.inst_tell]

/-- Settling the tiles under way changes no group but its list of tiles to write back, and no fault. -/
theorem State.settleTiles_inst (s : State) (me : Region × SlotNo) (g : Nat) :
    ((s.settleTiles me g).inst me.1 me.2).faulting = (s.inst me.1 me.2).faulting ∧
      ∀ x ∈ ((s.settleTiles me g).inst me.1 me.2).groups,
        ∃ y ∈ (s.inst me.1 me.2).groups, ∃ wb, x = { y with wb := wb } := by
  simp only [State.settleTiles]
  split
  · exact ⟨rfl, fun x hx => ⟨x, hx, x.wb, rfl⟩⟩
  · simp only [State.inst_onInst_self, State.inst_onGroup, List.mem_map]
    refine ⟨trivial, ?_⟩
    rintro _ ⟨y, hy, rfl⟩
    refine ⟨y, hy, ?_⟩
    split
    · exact ⟨_, rfl⟩
    · exact ⟨y.wb, rfl⟩

theorem State.settleTiles_owes (s : State) (me : Region × SlotNo) (g t : Nat)
    (h : ∀ x ∈ (s.inst me.1 me.2).groups, x.g = g → x.owes t) :
    ∀ x ∈ ((s.settleTiles me g).inst me.1 me.2).groups, x.g = g → x.owes t := by
  intro x hx hg
  obtain ⟨y, hy, wb, rfl⟩ := (s.settleTiles_inst me g).2 x hx
  exact h y hy hg

/-! ## The command -/

/-- All of an abort but its fault record. -/
def State.aborted (s : State) (me : Region × SlotNo) (c : Chart) (k : Fin 64) (q : Position) (t : Nat)
    (cause : BitVec 3) : State :=
  (((s.discardAll c k q t cause).oweTile me q.group t).faultInst me.1 me.2 4).settleTiles me q.group

theorem State.aborted_clusters (s : State) (me : Region × SlotNo) (c : Chart) (k : Fin 64) (q : Position) (t : Nat)
    (cause : BitVec 3) : (s.aborted me c k q t cause).clusters = (s.discardAll c k q t cause).clusters := by
  rw [State.aborted, State.settleTiles_clusters, State.faultInst_clusters, State.oweTile_clusters]

theorem State.aborted_owes (s : State) (me : Region × SlotNo) (c : Chart) (k : Fin 64) (q : Position) (t : Nat)
    (cause : BitVec 3) : ∀ x ∈ ((s.aborted me c k q t cause).inst me.1 me.2).groups, x.g = q.group → x.owes t :=
  State.settleTiles_owes _ _ _ _ (by rw [State.faultInst_groups]; exact (State.oweTile_owes _ me q.group t))

theorem State.aborted_faulting (s : State) {me : Region × SlotNo} (c : Chart) (k : Fin 64) (q : Position) (t : Nat)
    (cause : BitVec 3) (hr : (s.inst me.1 me.2).st = .running) (h0 : (s.inst me.1 me.2).faulting = 0) :
    ((s.aborted me c k q t cause).inst me.1 me.2).faulting = 4 := by
  have inst : (s.discardAll c k q t cause).inst me.1 me.2 = s.inst me.1 me.2 := by
    simp only [State.inst, s.discardAll_regions]
  obtain ⟨st, faulting⟩ := (s.discardAll c k q t cause).oweTile_inst me q.group t
  rw [inst] at st faulting
  exact (State.settleTiles_inst ..).1.trans (State.faultInst_faulting _ 4 (st.trans hr) (faulting.trans h0))

theorem W.abortTile_eq (w : W) (me : Region × SlotNo) (c : Chart) (k : Fin 64) (q : Position) (t : Nat)
    (cause : BitVec 3) : ∃ u, ArraysKept w.s u ∧ u.pk = w.s.pk ∧
      (w.abortTile me c k q t cause).s = u.aborted me c k q t cause := by
  unfold W.abortTile
  extract_lets w1
  have kept : ArraysKept w.s w1.s ∧ w1.s.pk = w.s.pk := by
    simp only [w1]; split
    · exact ⟨.refl _, rfl⟩
    · exact ⟨w.fault_arraysKept .., (w.fault_still ..).1⟩
  clear_value w1
  refine ⟨w1.s, kept.1, kept.2, ?_⟩
  simp only [W.on_s, State.aborted, State.discardAll, State.oweTile] <;> rfl

theorem exec_tileAbort_not_due {r : Region} {c : Cluster} (e : Env) {s : State}
    (h : s.faultDue (clIdx r c) = none ∨ s.alarmed = true ∨ s.clusterOn (clIdx r c) = false) :
    exec (.tileAbort r c e) s = .next s := by
  simp only [exec, execTileAbort]
  split
  · next hd =>
    split
    · rfl
    · rw [if_pos (by simpa [hd] using h)]
  · rfl

theorem exec_tileAbort {r : Region} {c : Cluster} (e : Env) {s : State} {me : Region × SlotNo} {ch : Chart}
    {q : Position} {t : Nat} {cause : BitVec 3} (hi : (s.clusters.get (clIdx r c)).inst = some me)
    (hq : (s.clusters.get (clIdx r c)).pos = some q) (hc : (s.inst me.1 me.2).chart = some ch)
    (hd : s.faultDue (clIdx r c) = some (t, cause)) (ha : s.alarmed = false) (ho : s.clusterOn (clIdx r c) = true) :
    exec (.tileAbort r c e) s = .next ((⟨s, e⟩ : W).abortTile me ch (clIdx r c) q t cause).s := by
  simp [exec, execTileAbort, hi, hq, hd, hc, ha, ho]

end Sys2Proof.Machine
end

section
/-! PROOF. What the commands of an array do and leave: steps, ends of chunks, promotion, drains and aborts (R88-R99,
R119, R122-R127, R137, R140, R143-R147, R371). -/

namespace Sys2Proof.Machine

/-! ## Steps -/

section
variable {r : Region} {c : Cluster} {s : State} {me : Region × SlotNo} {ch : Chart} {q : Position} {t : Tile}
  (n : Nat) (e : Env) (h : s.atWork (clIdx r c) = some (me, ch, q))
  (ht : (s.clusters.get (clIdx r c)).tile = some t)
include h ht

theorem exec_arrayStep_full (hf : t.full = true) : exec (.arrayStep r c n e) s = .next s := by
  rw [exec_arrayStep h, if_neg (by simp [ht]), W.stream_full ht hf]

theorem exec_arrayStep_fault (hf : t.full = false) {u : W} {cause : BitVec 3}
    (ha : (⟨s.waitedCc (clIdx r c) n, e⟩ : W).edge me ch (s.clusters.get (clIdx r c)).mode.toNat (clIdx r c).1 t.index
      t.geom 0 t.k = (u, .fault cause)) :
    exec (.arrayStep r c n e) s =
      .next (u.s.onCluster (clIdx r c) fun y => { y with fault := some (t.index, cause) }) := by
  rw [exec_arrayStep h, if_neg (by simp [ht]), W.stream_read ht hf (State.fault_of_atWork h)]
  simp [W.edges, W.on, ha, gotThen]

theorem exec_arrayStep_got (hf : t.full = false) {u v : W} {as bs : List Entry}
    (ha : (⟨s.waitedCc (clIdx r c) n, e⟩ : W).edge me ch (s.clusters.get (clIdx r c)).mode.toNat (clIdx r c).1 t.index
      t.geom 0 t.k = (u, .got as))
    (hb : u.edge me ch (s.clusters.get (clIdx r c)).mode.toNat (clIdx r c).1 t.index t.geom 1 t.k = (v, .got bs)) :
    exec (.arrayStep r c n e) s = .next (v.s.onCluster (clIdx r c) fun y =>
      { y with tile := some (t.take (chartMode ch) (keptEdge as) (keptEdge bs)) }) := by
  rw [exec_arrayStep h, if_neg (by simp [ht]), W.stream_read ht hf (State.fault_of_atWork h)]
  simp [W.edges, W.on, ha, hb, gotThen]

end

section
variable {r : Region} {c : Cluster} {s : State} {me : Region × SlotNo} {ch : Chart} {q : Position} {i : Nat}
  {rest : List Nat} (n : Nat) (e : Env) (h : s.atWork (clIdx r c) = some (me, ch, q))
  (ht : (s.clusters.get (clIdx r c)).tile = none) (hi : (s.clusters.get (clIdx r c)).issued = i :: rest)
include h ht hi

theorem exec_arrayStep_not_taken (hm : s.mayTake me q.group i = false) : exec (.arrayStep r c n e) s = .next s := by
  rw [exec_arrayStep h, if_pos (by simp [ht]), W.takeUp_waits (w := ⟨s, e⟩) hi hm, W.stream_none ht]

theorem exec_arrayStep_empty (hm : s.mayTake me q.group i = true)
    (hg : (tileGeom ch (s.inst me.1 me.2).bounds i q.quad).mv = 0 ∨
      (tileGeom ch (s.inst me.1 me.2).bounds i q.quad).nv = 0) :
    exec (.arrayStep r c n e) s = .next (s.emptyTile me (clIdx r c) q i) := by
  obtain ⟨b, own⟩ := s.emptyTile_own me (clIdx r c) q i
  rw [exec_arrayStep h, if_pos (by simp [ht]), W.takeUp_empty (w := ⟨s, e⟩) hi hm hg, W.stream_none]
  · rfl
  · rw [W.on_s, own]; exact ht

/-- The tile taken up streams its first step, or waits in pass. -/
theorem exec_arrayStep_taken {g : TileGeom} (hg : g = tileGeom ch (s.inst me.1 me.2).bounds i q.quad)
    (hm : s.mayTake me q.group i = true) (hmv : g.mv ≠ 0) (hnv : g.nv ≠ 0) (hs : chartMode ch ≠ .strict)
    (hk : (posSteps ch q g.k).1 < (posSteps ch q g.k).2) :
    ∃ x : State, exec (.arrayStep r c n e) s = .next x ∧ (x.clusters.get (clIdx r c)).issued = rest ∧
      (x.clusters.get (clIdx r c)).tile.map (·.index) = some i := by
  refine ⟨_, by rw [exec_arrayStep h, if_pos (by simp [ht]), W.takeUp_pass (w := ⟨s, e⟩) hi hm hg hmv hnv hs hk], ?_⟩
  obtain ⟨issued, index⟩ := W.stream_keeps_index (me := me) (ch := ch) (k := clIdx r c) (n := n)
    (w := W.on ⟨s, e⟩ fun s => (s.beginPass me q.group i).onCluster (clIdx r c) fun y =>
      { y with issued := y.issued.drop 1, turn := y.turn + 1,
               tile := some (Tile.begun ch q g i (ch.turnSlot (s.clusters.get (clIdx r c)).turn)) }) (by simp; rfl)
  refine ⟨issued.trans (by simp [hi]), index⟩

end

/-! ## Chunks -/

/-- The cluster once a chunk of its tile has ended: what is not last goes on in pass, what is summed is promoted. -/
def ClusterSt.chunkEnded (y : ClusterSt) (ch : Chart) (t : Tile) (n : Nat) (bank : List IVal) : ClusterSt :=
  let last := t.lastChunk (chartMode ch)
  { y with
    waitCc := y.waitCc + BitVec.ofNat 64 n, passCc := y.passCc + BitVec.ofNat 64 (chunkCc ch t.chunkSteps),
    tile := if last then none else some (t.next (chartMode ch)),
    promo := if last || chartMode ch != .strict then some (t.promotion ch last) else y.promo, bank := bank }

theorem exec_chunkEnd_ends {r : Region} {c : Cluster} {s : State} {me : Region × SlotNo} {ch : Chart} {q : Position}
    {t : Tile} (n : Nat) (h : s.atWork (clIdx r c) = some (me, ch, q))
    (ht : (s.clusters.get (clIdx r c)).tile = some t) (hf : t.full = true)
    (hp : (s.clusters.get (clIdx r c)).promo = none) :
    ∃ (x : State) (b : List IVal), exec (.chunkEnd r c n) s = .next x ∧ x.mem = s.mem ∧
      x.clusters.get (clIdx r c) = (s.clusters.get (clIdx r c)).chunkEnded ch t n b ∧
      ∀ j, j ≠ clIdx r c → x.clusters.get j = s.clusters.get j := by
  rw [exec_chunkEnd h ht, if_neg (by simp [hf, hp])]
  generalize clIdx r c = k
  have passed := s.chunkPassed_own k n (chunkCc ch t.chunkSteps)
  have kept := fun j => s.chunkPassed_others (k := k) (j := j) n (chunkCc ch t.chunkSteps)
  obtain ⟨b, own⟩ := (s.chunkPassed k n (chunkCc ch t.chunkSteps)).toPromotion_own me ch k q t
    (t.lastChunk (chartMode ch))
  have others := fun j (hj : j ≠ k) => ((s.chunkPassed k n (chunkCc ch t.chunkSteps)).toPromotion_others me ch q t
    (t.lastChunk (chartMode ch)) hj).trans (kept j hj)
  rw [passed] at own
  cases hl : t.lastChunk (chartMode ch) with
  | true =>
    rw [hl] at own others
    exact ⟨_, b, rfl, by simp, by simp [own, ClusterSt.chunkEnded, hl], others⟩
  | false =>
    rw [hl] at own others
    by_cases hs : chartMode ch = .strict
    · rw [hs] at hl
      exact ⟨_, (s.clusters.get k).bank, rfl, by simp [hs], by simp [hs, passed, ClusterSt.chunkEnded, hl],
        fun j hj => by simp [hs, vmod_get_ne _ _ hj, kept j hj]⟩
    · exact ⟨_, b, rfl, by simp [hs], by simp [hs, own, ClusterSt.chunkEnded, hl],
        fun j hj => by simp [hs, vmod_get_ne _ _ hj, others j hj]⟩

/-! ## The obligation -/

/-- Settles O59, command by command: what a step, the end of a chunk, a promoted row, the end of a drain and an abort
do to the cluster, from the equations of each command; a read in between leaves the array as it is (`ReadBy`). -/
theorem arraysComputeTiles : Obligations.ArraysComputeTiles := by
  unfold Obligations.ArraysComputeTiles
  rintro r c e s k rfl
  refine ⟨fun h => ?idle, fun me ch q h => ⟨fun n t ht => ⟨exec_arrayStep_full n e h ht, fun u cause hf ha => ?fault,
      fun u v as bs hf ha hb hl hn => ?step, fun hf => ?notEnded, fun hf hp => ?chunk⟩,
    fun n i rest g ht hi hg => ⟨exec_arrayStep_not_taken n e h ht hi,
      fun hm hmv hnv hs hk => exec_arrayStep_taken n e h ht hi hg hm hmv hnv hs hk, fun hm h0 => ?empty⟩,
    fun p hp hr hn hb => ⟨fun hl => ?inner, fun hl hc => ⟨fun next hx => ⟨fun h0 ho => ?outboxFull, fun ho => ?chain⟩,
      fun hx => ⟨fun h0 hd => ?noRoom, fun hd hm => ?beyond, fun u ins cfg hd hm hu hcfg => ?row⟩⟩,
      exec_promotionRow_waits e h hp⟩,
    fun d hd => ⟨fun hl => ?draining, fun hl => ?drained⟩⟩, exec_tileAbort_not_due e,
    fun me ch q i cause hi hq hc hd ha ho hw hr => ?abort⟩
  case idle => simp [exec, execArrayStep, execChunkEnd, execPromotionRow, execDrainComplete, h]
  case fault =>
    have read := W.edge_readBy ⟨s.waitedCc (clIdx r c) n, e⟩ me ch (s.clusters.get (clIdx r c)).mode.toNat (clIdx r c)
      t.index t.geom 0 t.k
    rw [ha] at read
    exact ⟨_, exec_arrayStep_fault n e h ht hf ha, by simp, by simp [read.tile, ht]⟩
  case step =>
    have first := W.edge_readBy ⟨s.waitedCc (clIdx r c) n, e⟩ me ch (s.clusters.get (clIdx r c)).mode.toNat (clIdx r c)
      t.index t.geom 0 t.k
    have second := W.edge_readBy u me ch (s.clusters.get (clIdx r c)).mode.toNat (clIdx r c) t.index t.geom 1 t.k
    rw [ha] at first
    rw [hb] at second
    refine ⟨_, t.take (chartMode ch) (keptEdge as) (keptEdge bs), exec_arrayStep_got n e h ht hf ha hb, by simp,
      rfl, rfl, rfl, rfl, Tile.take_full .., ?_, ?_⟩
    · intro i j a b z hi hj hz
      rw [← keptEdge_length hl hn] at hz ⊢
      exact Tile.take_cell _ _ hi hj hz
    · intro j hj
      simp [vmod_get_ne _ _ hj, (first.trans second).others j hj]
  case notEnded => rw [exec_chunkEnd h ht, if_pos hf]
  case chunk =>
    obtain ⟨x, b, hx, mem, own, others⟩ := exec_chunkEnd_ends n h ht hf hp
    refine ⟨x, hx, mem, ?_⟩
    rw [own]
    refine ⟨rfl, rfl, fun hl => ?_, fun hl => ?_, fun hs hl => ?_, fun hl => ?_, others⟩
    · simp [ClusterSt.chunkEnded, hl]
    · exact ⟨_, by simp [ClusterSt.chunkEnded, hl]; rfl, t.next_full _, t.next_index _, by simp [t.next_cells]⟩
    · rw [hs] at hl
      simp [ClusterSt.chunkEnded, hl, hs, hp]
    · refine ⟨t.promotion ch (t.lastChunk (chartMode ch)), ?_, rfl, rfl, rfl, rfl, rfl⟩
      rcases hl with hl | hl <;> simp [ClusterSt.chunkEnded, hl]
  case empty =>
    obtain ⟨b, own⟩ := s.emptyTile_own me (clIdx r c) q i
    refine ⟨_, exec_arrayStep_empty n e h ht hi hm (hg ▸ h0), ?_⟩
    rw [own]
    exact ⟨by simp [hi], ht, rfl, rfl, rfl, (s.emptyTile_frame ..).1⟩
  case inner =>
    refine ⟨_, exec_promotionRow_chunk e h hp hl, by simp, State.nextRow_promo .., fun hs => ?_, fun hs hm => ?_⟩
    · rw [s.nextRow_bank _ hl, p.folded_same _ hs]
    · rw [s.nextRow_bank _ hl, p.folded_row _ hs hm]
      have row := TileGeom.lt_keptRows hr hm
      refine ⟨fun j hj => ?_, fun m => putBankRow_outside hb row (p.own_length _)⟩
      rw [putBankRow_inside hb row (p.own_length _) hj, p.own_kept _ hm hj]
  case outboxFull => simp [exec_promotionRow_last e h hp hl hc, hx, h0, ho]
  case chain =>
    refine ⟨_, by simp only [exec_promotionRow_last e h hp hl hc, hx]; rw [if_neg (by simpa using ho)], by simp, ?_⟩
    obtain ⟨b, i, own⟩ := (s.chainRow (clIdx r c) next p (p.lone ch (s.clusters.get (clIdx r c)).bank)).rowEnds_own
      (clIdx r c) p (p.folded ch (s.clusters.get (clIdx r c)).bank)
    rw [own]
    exact ⟨rfl, s.chainRow_status _ next p _⟩
  case noRoom => simp [exec_promotionRow_last e h hp hl hc, hx, h0, hd]
  case beyond =>
    obtain ⟨d, drain, rows, promo⟩ := s.rowDrained ch (clIdx r c) q p [] (p.folded ch (s.clusters.get (clIdx r c)).bank)
    refine ⟨_, d, by
      simp only [exec_promotionRow_last e h hp hl hc, hx]
      rw [if_neg (by simpa using hd), if_pos hm], ?_, drain, rows, promo⟩
    simp [State.drainRow]
  case row =>
    have read := W.epiInputs_readBy ⟨s, e⟩ me ch (clIdx r c) p
    rw [hu] at read
    obtain ⟨d, drain, rows, promo⟩ := u.s.rowDrained ch (clIdx r c) q p
      (p.elements ch cfg (p.lone ch (s.clusters.get (clIdx r c)).bank) ins)
      (p.folded ch (s.clusters.get (clIdx r c)).bank)
    rw [read.drain] at rows
    refine ⟨_, d, _, by
      simp only [exec_promotionRow_last e h hp hl hc, hx, hu, ← hcfg]
      rw [if_neg (by simpa using hd), if_neg (by omega)], drain, rows, promo, fun j i hi hj => ?_⟩
    rw [p.elements_code ch cfg _ hi]
    by_cases hs : chartMode ch = .strict
    · simp [Promo.element, hs]
    · rw [if_neg hs, ← p.lone_total (s.clusters.get (clIdx r c)).bank hs hm hn hj]
      simp [Promo.element, hs]
  case draining => rw [exec_drainComplete h hd, if_pos hl]
  case drained =>
    obtain ⟨x, hx, mem, own⟩ := exec_drainComplete_drained h hd hl
    obtain ⟨drain, index, status⟩ := ClusterSt.deliver_keeps { s.clusters.get (clIdx r c) with
      drain := none, lastIndex := BitVec.ofNat 64 d.index, tileStatus := mxStatus d.longsum d.subflush d.nf } ch d
    refine ⟨x, hx, mem, ?_⟩
    rw [own]
    exact ⟨drain, index, status, ClusterSt.deliver_queue _ d, ClusterSt.deliver_out _ d⟩
  case abort =>
    obtain ⟨u, kept, pk, aborted⟩ := W.abortTile_eq ⟨s, e⟩ me ch (clIdx r c) q i cause
    obtain ⟨_, inst⟩ := kept.2 me.1 me.2
    have own := u.discardAll_own ch (k := clIdx r c) (q := q) (t := i) (cause := cause) (by rw [kept.1]; exact hw)
      (by rw [pk]; exact hr)
    obtain ⟨tile, promo, drain, outs⟩ := ClusterSt.discard_clears (u.clusters.get (clIdx r c)) i cause
    refine ⟨_, exec_tileAbort e hi hq hc hd ha ho, ?_⟩
    rw [aborted, State.aborted_clusters, own]
    exact ⟨rfl, rfl, tile, promo, drain, outs, u.aborted_owes me ch _ q i cause,
      fun hs h0 => u.aborted_faulting ch _ q i cause (by rw [inst]; exact hs) (by rw [inst]; exact h0)⟩

end Sys2Proof.Machine
end

section
/-! PROOF. Fault records of a region whose ring lies on this chiplet: what they change (R368). -/

namespace Sys2Proof.Machine

@[simp] theorem natToBytes_length (n v : Nat) : (natToBytes n v).length = n := by
  induction n generalizing v with
  | zero => rfl
  | succ n ih => simp [natToBytes, ih]

@[simp] theorem State.faultBytes_length (s : State) (n : Nat) (f : FaultRec) : (s.faultBytes n f).length = 64 :=
  natToBytes_length ..

/-- 64 bytes stored into lagoon block `off / 64`, whose region's clock starts (R222, R379). -/
def State.recordPut (s : State) (off : Nat) (bs : List Byte) : State :=
  ((s.wakeRegion (blockRegion (off / 64))).blockPut (off / 64) bs).sliceIn off 64

theorem State.recordPut_mem (s : State) (off : Nat) (bs : List Byte) :
    (s.recordPut off bs).mem = (s.blockPut (off / 64) bs).mem := by
  rw [State.recordPut, State.wakeRegion_powerOnly]; rfl

theorem State.recordPut_link (s : State) (off : Nat) (bs : List Byte) : (s.recordPut off bs).link = s.link := by
  rw [State.recordPut, State.wakeRegion_powerOnly]; rfl

theorem W.write64_lagoon (w : W) {a off : Nat} (h : w.s.locate a = .lagoon off) (bs : List Byte) :
    w.write64 a bs = if w.s.poisoned (off / 64) then (w, false) else (w.on (·.recordPut off bs), true) := by
  simp only [W.write64, h]; rfl

/-- A record that names no `Inst`, of a region whose records stay here, is lost or stands in its lagoon block. -/
theorem W.fault_stays (w : W) {r : Region} (f : FaultRec) (h : RecordsStay w.s r) (hi : f.inst = 0x7FF) :
    (w.fault r f).s = w.s.faultLost r ∨ (w.s.regions.get r).flt.en = true ∧
      ∃ off, w.s.locate ((w.s.regions.get r).flt.base.toNat + 64 * ((w.s.regions.get r).flt.wr.toNat %
          ringSize (w.s.regions.get r).flt.log2)) = .lagoon off ∧
        (w.fault r f).s = ((w.s.recordPut off (w.s.faultBytes (w.s.regions.get r).flt.wr.toNat f)).onRegion r fun y =>
          { y with flt := { y.flt with wr := y.flt.wr + 1 } }).count 30 1 := by
  obtain off | ⟨quiet, here⟩ := h
  · exact .inl (by simp [W.fault, off])
  obtain ⟨off, hoff⟩ := here ((w.s.regions.get r).flt.wr.toNat % ringSize (w.s.regions.get r).flt.log2)
    (Nat.mod_lt _ (Nat.two_pow_pos _))
  simp only [W.fault, w.write64_lagoon hoff]
  split
  · exact .inl rfl
  next room =>
    simp only [Bool.or_eq_true, Bool.not_eq_true', not_or, Bool.not_eq_false] at room
    by_cases hp : w.s.poisoned (off / 64) = true
    · exact .inl (by simp [hp])
    · exact .inr ⟨room.1, off, hoff, by simp [hp, quiet, hi, State.instOf]⟩

theorem OnlyRecord.of_mem {s t : State} (r : Region) (h : t.mem = s.mem) : OnlyRecord s t r := by
  simp [OnlyRecord, h]

theorem OnlyRecord.trans_mem {s t u : State} {r : Region} (h : OnlyRecord s t r) (hu : u.mem = t.mem) :
    OnlyRecord s u r := by
  simpa only [OnlyRecord, hu] using h

theorem State.recordPut_onlyRecord (s : State) {r : Region} {off : Nat} {bs : List Byte}
    (he : (s.regions.get r).flt.en = true) (hl : bs.length = 64)
    (h : s.locate ((s.regions.get r).flt.base.toNat + 64 * ((s.regions.get r).flt.wr.toNat %
      ringSize (s.regions.get r).flt.log2)) = .lagoon off) : OnlyRecord s (s.recordPut off bs) r := by
  simp only [OnlyRecord, State.recordPut_mem, he]
  refine ⟨rfl, rfl, nofun, fun o wf ho a ha => ?_⟩
  obtain rfl : off = o := Place.lagoon.inj (h.symm.trans ho)
  exact memRead_memWriteN_outside wf _ bs (by omega)

/-- Such a record leaves the links, the clusters, and every byte but those of its place. -/
theorem W.fault_onlyRecord (w : W) {r : Region} (f : FaultRec) (h : RecordsStay w.s r) (hi : f.inst = 0x7FF) :
    OnlyRecord w.s (w.fault r f).s r ∧ (w.fault r f).s.link = w.s.link ∧ (w.fault r f).s.clusters = w.s.clusters := by
  refine ⟨?_, ?_, (w.fault_arraysKept r f).1⟩
  · obtain lost | ⟨he, off, hoff, put⟩ := w.fault_stays f h hi
    · exact .of_mem r (by rw [lost]; rfl)
    · exact (w.s.recordPut_onlyRecord he (w.s.faultBytes_length (w.s.regions.get r).flt.wr.toNat f) hoff).trans_mem
        (by simp [put])
  · obtain lost | ⟨-, off, -, put⟩ := w.fault_stays f h hi
    · rw [lost]; rfl
    · simp [put, w.s.recordPut_link off]

end Sys2Proof.Machine
end

section
/-! PROOF. Payload flits of a sum chain: into the inbox of their cluster, or turned away (R122, R293, R299, R309, R377,
R392). -/

namespace Sys2Proof.Machine

/-! ## The flit leaves its port (R299) -/

theorem takeFirst_length {α : Type} {p : α → Bool} {x : α} {xs : List α} (hx : x ∈ xs) (hp : p x = true) :
    (takeFirst p xs).2.length + 1 = xs.length := by
  induction xs with
  | nil => cases hx
  | cons y ys ih =>
    by_cases hy : p y = true
    · simp [takeFirst, hy]
    · obtain rfl | hx := List.mem_cons.1 hx
      · exact absurd hp hy
      · simp [takeFirst, hy, ih hx]

/-- Payload flit `f` gone from port `p`, its buffer freed. -/
def State.tookPayload (s : State) (p : Port) (f : TxFlit) : State :=
  (s.onPort p fun q => { q with payWait := (takeFirst (· == f) q.payWait).2 }).freeFlit p f.cls

theorem State.tookPayload_port (s : State) {p : Port} {f : TxFlit} (h : f ∈ (s.port p).payWait)
    (hc : protoClass f.proto = 2) : ((s.tookPayload p f).port p).payWait.length + 1 = (s.port p).payWait.length ∧
      ((s.tookPayload p f).port p).freed.get 2 = (s.port p).freed.get 2 + 1 := by
  have chain : f.cls = 2 := by rw [TxFlit.cls, hc]; rfl
  simp only [State.tookPayload, State.freeFlit, State.port_onPort_self, chain, vmod_get_self, and_true]
  exact takeFirst_length h (beq_self_eq_true f)

/-! ## The command -/

section
variable {p : Port} {proto : W64} {payload : List Byte} {s : State}

theorem exec_payloadFlit_waits
    (h : ⟨proto, payload⟩ ∉ (s.port p).payWait ∨ protoClass proto ≠ 2 ∨ s.power.forced = true) :
    exec (.payloadFlit p proto payload) s = .next s := by
  simp only [exec, execPayloadFlit, Bool.not_eq_true', ← Bool.not_eq_true, List.contains_iff_mem]
  exact if_pos h

variable (h : ⟨proto, payload⟩ ∈ (s.port p).payWait) (hc : protoClass proto = 2) (hf : s.power.forced = false)
include h hc hf

theorem exec_payloadFlit_turnedAway (ho : s.proto.fence.getLsbD p.1 = true ∨ s.hasFeature 1 = false) :
    exec (.payloadFlit p proto payload) s = .next ((⟨s.tookPayload p ⟨proto, payload⟩, Env.quiet⟩ : W).fault 0
      { source := 7, cause := 2, region := 0, detail := p.1 }).s := by
  simp only [exec, execPayloadFlit, List.contains_iff_mem.2 h, hc, hf]
  rw [if_neg (by simp), if_pos (by simpa using ho)]
  rfl

theorem exec_payloadFlit_taken (hn : s.proto.fence.getLsbD p.1 = false) (hp : s.hasFeature 1 = true) :
    exec (.payloadFlit p proto payload) s =
      .next ((s.tookPayload p ⟨proto, payload⟩).takeChain proto.toNat payload) := by
  simp only [exec, execPayloadFlit, List.contains_iff_mem.2 h, hc, hf, hn, hp]
  rfl

end

/-! ## Into the inbox (R122, R293, R377) -/

theorem State.wakeCluster_waiting (s : State) {k : Nat} (h : s.power.clustersOn.getLsbD k = false) :
    k ∈ (s.wakeCluster k).power.waiting := by
  simp only [State.wakeCluster, h, Bool.false_or, List.contains_iff_mem]
  split
  · assumption
  · simp

/-- Cluster `k` passed through `f`, a start of its clock asked for. -/
def State.wakeWith (s : State) (k : Fin 64) (f : ClusterSt → ClusterSt) : State := (s.wakeCluster k.1).onCluster k f

theorem State.wakeWith_eq (s : State) (k : Fin 64) (f : ClusterSt → ClusterSt) : s.wakeWith k f =
    { s with clusters := vmod s.clusters k f, power := (s.wakeCluster k.1).power } := by
  rw [State.wakeWith, State.wakeCluster_powerOnly]; rfl

theorem State.wakeWith_mem (s : State) (k : Fin 64) (f : ClusterSt → ClusterSt) : (s.wakeWith k f).mem = s.mem := by
  rw [State.wakeWith_eq]

theorem State.wakeWith_regions (s : State) (k : Fin 64) (f : ClusterSt → ClusterSt) :
    (s.wakeWith k f).regions = s.regions := by
  rw [State.wakeWith_eq]

theorem State.wakeWith_port (s : State) (k : Fin 64) (f : ClusterSt → ClusterSt) (p : Port) :
    (s.wakeWith k f).port p = s.port p := by
  rw [State.wakeWith_eq]; rfl

theorem State.wakeWith_own (s : State) (k : Fin 64) (f : ClusterSt → ClusterSt) :
    (s.wakeWith k f).clusters.get k = f (s.clusters.get k) := by
  rw [State.wakeWith_eq]; exact vmod_get_self ..

theorem State.wakeWith_others (s : State) {k j : Fin 64} (f : ClusterSt → ClusterSt) (h : j ≠ k) :
    (s.wakeWith k f).clusters.get j = s.clusters.get j := by
  rw [State.wakeWith_eq]; exact vmod_get_ne _ _ h

theorem State.takeChain_row (s : State) {proto : Nat} {k : Fin 64} (payload : List Byte)
    (hk : k.1 = 8 * field proto 37 3 + field proto 34 3) (h : testBit proto 23 = false) :
    s.takeChain proto payload = s.wakeWith k (·.takeRow (field proto 27 7) (field proto 24 3) (chainRecs payload)) := by
  simp only [State.takeChain, ← hk, fin_self, h]; rfl

theorem State.takeChain_trailer (s : State) {proto : Nat} {k : Fin 64} {payload : List Byte}
    (hk : k.1 = 8 * field proto 37 3 + field proto 34 3) (h : testBit proto 23 = true)
    (ha : testBit (sub payload 0 1) 2 = false) : s.takeChain proto payload =
      s.wakeWith k (·.takeTrailer (sub payload 8 8) (BitVec.ofNat 8 (sub payload 0 1))) := by
  simp only [State.takeChain, ← hk, fin_self, h, ha]; rfl

theorem ClusterSt.takeRow_rows {y : ClusterSt} {n : Nat} {rest : List Nat} (row part : Nat) (recs : List IVal)
    (hd : y.chainIn.due = n :: rest) (hn : y.doneWith n = false) :
    (y.takeRow row part recs).chainIn.rows = y.chainIn.rows ++ [⟨n, row, part, recs⟩] := by
  simp [ClusterSt.takeRow, hd, hn]

theorem ClusterSt.takeTrailer_trailers {y : ClusterSt} {t : Nat} (flags : BitVec 8) (h : y.doneWith t = false) :
    (y.takeTrailer t flags).chainIn.trailers = y.chainIn.trailers ++ [(t, flags)] := by
  simp [ClusterSt.takeTrailer, h]

/-- Settles O28: the flit leaves its port; a fence or the profile turns it into a fault record, and otherwise its kind,
part of a row or trailer, says what its cluster's inbox takes. -/
theorem payloadFlitsReachTheirPlace : Obligations.PayloadFlitsReachTheirPlace := by
  unfold Obligations.PayloadFlitsReachTheirPlace
  rintro p proto payload _ s rfl
  refine ⟨exec_payloadFlit_waits, fun h hc hf => ⟨fun ho stay => ?away, fun k hn hp hk => ⟨fun hb => ?row,
    fun hb ha => ?trailer⟩⟩⟩
  case away =>
    obtain ⟨record, link, clusters⟩ := W.fault_onlyRecord ⟨s.tookPayload p ⟨proto, payload⟩, Env.quiet⟩
      (r := 0) { source := 7, cause := 2, region := 0, detail := p.1 } stay rfl
    refine ⟨_, exec_payloadFlit_turnedAway h hc hf ho, clusters, record, ?_⟩
    rw [State.port, link]
    exact s.tookPayload_port h hc
  case row =>
    obtain ⟨left, freed⟩ := s.tookPayload_port h hc
    have taken := (exec_payloadFlit_taken h hc hf hn hp).trans (congrArg _ (State.takeChain_row _ payload hk hb))
    refine ⟨_, taken, (State.wakeWith_mem ..).trans rfl,
      (State.wakeWith_regions ..).trans rfl, by rwa [State.wakeWith_port], h, by rwa [State.wakeWith_port],
      fun j hj => State.wakeWith_others _ _ hj, fun n rest hd hy => ?_,
      fun ho => State.wakeCluster_waiting (s.tookPayload p _) ho⟩
    rw [State.wakeWith_own]
    exact ClusterSt.takeRow_rows _ _ _ hd hy
  case trailer =>
    have taken := (exec_payloadFlit_taken h hc hf hn hp).trans (congrArg _ (State.takeChain_trailer _ hk hb ha))
    refine ⟨_, taken, (State.wakeWith_mem ..).trans rfl,
      (State.wakeWith_regions ..).trans rfl, fun j hj => State.wakeWith_others _ _ hj, ?_, fun hy => ?_⟩
    · rw [State.wakeWith_own]; rfl
    · rw [State.wakeWith_own]; exact ClusterSt.takeTrailer_trailers _ hy

end Sys2Proof.Machine
end

section
/-! PROOF. A tile queued at the clusters of a group: the inboxes and queues there, and the staged blocks that it uses
(R139, R188, R200). -/

namespace Sys2Proof.Machine

/-! ## Counters under an update (R206) -/

theorem State.counter_eq {s t : State} (h : ∀ r, (t.regions.get r).counters = (s.regions.get r).counters) (m : Nat) :
    t.counter m = s.counter m := by
  rw [State.counter, State.counter, h]

/-! ## Staged blocks that count as used (R200) -/

theorem subset_setInsert (x : Nat) (xs : List Nat) : xs ⊆ setInsert x xs := by
  induction xs with
  | nil => simp
  | cons y ys ih =>
    simp only [setInsert]
    split
    · exact List.subset_cons_self ..
    · split
      · exact fun _ h => h
      · exact List.cons_subset_cons y ih

/-- A region whose staged blocks have been used by those that `f` names. -/
def RegionSt.usedBy (z : RegionSt) (f : Staged → List Nat) : RegionSt :=
  { z with fy := { z.fy with staged := z.fy.staged.map fun x => { x with used := f x } } }

theorem vmap_get {α β : Type} {n : Nat} (v : Vector α n) (f : α → β) (i : Fin n) :
    (v.map f).get i = f (v.get i) :=
  Vector.getElem_map f i.2

/-- Clusters may differ; elsewhere only that more units have used a staged block. -/
def UsesMore (s t : State) : Prop :=
  ∃ f : Staged → List Nat, (∀ x, x.used ⊆ f x) ∧
    t = { s with clusters := t.clusters, regions := s.regions.map (·.usedBy f) }

theorem UsesMore.of_clusters {s t : State} (h : t = { s with clusters := t.clusters }) : UsesMore s t := by
  refine ⟨Staged.used, fun _ _ h => h, ?_⟩
  have same : s.regions.map (·.usedBy Staged.used) = s.regions := by simp [RegionSt.usedBy]
  rw [same]; exact h

theorem UsesMore.trans {s t u : State} (h : UsesMore s t) (k : UsesMore t u) : UsesMore s u := by
  obtain ⟨f, hf, ht⟩ := h
  obtain ⟨g, hg, hu⟩ := k
  refine ⟨fun x => g { x with used := f x }, fun x => List.Subset.trans (hf x) (hg { x with used := f x }), ?_⟩
  rw [hu, ht]
  simp [RegionSt.usedBy, Function.comp_def]

section
variable {s t : State} (h : UsesMore s t)
include h

theorem UsesMore.pk : t.pk = s.pk := by obtain ⟨f, -, ht⟩ := h; rw [ht]
theorem UsesMore.power : t.power = s.power := by obtain ⟨f, -, ht⟩ := h; rw [ht]
theorem UsesMore.outbox : t.outbox = s.outbox := by obtain ⟨f, -, ht⟩ := h; rw [ht]

theorem UsesMore.region (r : Region) :
    ∃ f : Staged → List Nat, (∀ x, x.used ⊆ f x) ∧ t.regions.get r = (s.regions.get r).usedBy f := by
  obtain ⟨f, hf, ht⟩ := h
  exact ⟨f, hf, by rw [ht, vmap_get]⟩

theorem UsesMore.inst (r : Region) (k : SlotNo) : t.inst r k = s.inst r k := by
  obtain ⟨f, -, hr⟩ := h.region r
  rw [State.inst, hr]; rfl

theorem UsesMore.counter (m : Nat) : t.counter m = s.counter m :=
  State.counter_eq (fun r => by obtain ⟨f, -, hr⟩ := h.region r; rw [hr]; rfl) m

end

/-- The staged blocks that cluster `k` needs count as used by its unit. -/
def UnitUses (s : State) (me : Region × SlotNo) (c : Chart) (bs : List Nat) (k : Fin 64) : Prop :=
  ∀ r : Region, ∀ x ∈ (s.regions.get r).fy.staged, ∀ p : Pattern, x.inst = me → x.level < 2 →
    c.patterns[x.pat]? = some p → unitOf x.level k.1 ∈ p.units (x.coords.headD 0) →
    (s.clusters.get k).needsBlock c bs x.level x.coords = true → unitOf x.level k.1 ∈ x.used

theorem UnitUses.mono {s t : State} {me : Region × SlotNo} {c : Chart} {bs : List Nat} {k : Fin 64}
    (h : UnitUses s me c bs k) (more : UsesMore s t) (hk : t.clusters.get k = s.clusters.get k) :
    UnitUses t me c bs k := by
  intro r x hx p hi hl hp hu hn
  obtain ⟨f, hf, hr⟩ := more.region r
  rw [hr] at hx
  obtain ⟨y, hy, rfl⟩ := List.mem_map.1 hx
  exact hf y (h r y hy p hi hl hp hu (hk ▸ hn))

/-- Cluster `k` needs block `x` for a tile issued to it, and stands in the mask of its pattern (R200, R203). -/
def State.takesBlock (s : State) (me : Region × SlotNo) (c : Chart) (bs : List Nat) (k : Fin 64) (x : Staged) : Bool :=
  x.inst == me && decide (x.level < 2) &&
    ((c.patterns[x.pat]?).any fun p => (p.units (x.coords.headD 0)).contains (unitOf x.level k.1)) &&
    (s.clusters.get k).needsBlock c bs x.level x.coords

/-- The units that have used a staged block, once cluster `k` has taken it up where it needs it. -/
def State.usersWith (s : State) (me : Region × SlotNo) (c : Chart) (bs : List Nat) (k : Fin 64) (x : Staged) :
    List Nat :=
  if s.takesBlock me c bs k x then setInsert (unitOf x.level k.1) x.used else x.used

theorem State.useBlocks_eq (s : State) (me : Region × SlotNo) (c : Chart) (bs : List Nat) (k : Fin 64) :
    s.useBlocks me c bs k = { s with regions := s.regions.map (·.usedBy (s.usersWith me c bs k)) } := by
  have mark : ∀ x : Staged, (if s.takesBlock me c bs k x then { x with used := setInsert (unitOf x.level k.1) x.used }
      else x) = { x with used := s.usersWith me c bs k x } := by
    intro x
    simp only [State.usersWith]; split <;> rfl
  simp only [RegionSt.usedBy, ← mark]
  rfl

theorem State.useBlocks_usesMore (s : State) (me : Region × SlotNo) (c : Chart) (bs : List Nat) (k : Fin 64) :
    UsesMore s (s.useBlocks me c bs k) := by
  refine ⟨s.usersWith me c bs k, fun x => ?_, s.useBlocks_eq me c bs k⟩
  simp only [State.usersWith]
  split
  · exact subset_setInsert ..
  · exact fun _ h => h

theorem State.useBlocks_unitUses (s : State) (me : Region × SlotNo) (c : Chart) (bs : List Nat) (k : Fin 64) :
    UnitUses (s.useBlocks me c bs k) me c bs k := by
  intro r x hx p hi hl hp hu hn
  rw [State.useBlocks_eq, vmap_get] at hx
  obtain ⟨y, -, rfl⟩ := List.mem_map.1 hx
  have taken : s.takesBlock me c bs k y = true := by
    simp only [State.takesBlock, Bool.and_eq_true, beq_iff_eq, decide_eq_true_eq, Option.any_eq_true,
      List.contains_iff_mem]
    exact ⟨⟨⟨hi, hl⟩, p, hp, hu⟩, hn⟩
  simp only [State.usersWith, taken, if_true]
  exact mem_setInsert_self ..

/-! ## A tile queued at the clusters of a group (R139, R188) -/

/-- A tile queued at one cluster. -/
def State.queueAt (s : State) (me : Region × SlotNo) (c : Chart) (bs : List Nat) (t : Nat) (k : Fin 64) : State :=
  (s.onCluster k (·.queueTile c bs t)).useBlocks me c bs k

theorem State.queueAt_usesMore (s : State) (me : Region × SlotNo) (c : Chart) (bs : List Nat) (t : Nat) (k : Fin 64) :
    UsesMore s (s.queueAt me c bs t k) :=
  (UsesMore.of_clusters rfl).trans (State.useBlocks_usesMore ..)

theorem State.queueAt_clusters (s : State) (me : Region × SlotNo) (c : Chart) (bs : List Nat) (t : Nat)
    (k j : Fin 64) : (s.queueAt me c bs t k).clusters.get j =
      if j = k then (s.clusters.get j).queueTile c bs t else s.clusters.get j :=
  vmod_get ..

/-- A tile queued at clusters none of which is named twice: each queues it once and uses its blocks, no other changes. -/
theorem State.foldl_queueAt (me : Region × SlotNo) (c : Chart) (bs : List Nat) (t : Nat) {ks : List (Fin 64)}
    (h : ks.Nodup) (s : State) : UsesMore s (ks.foldl (·.queueAt me c bs t ·) s) ∧
      (∀ k, (ks.foldl (·.queueAt me c bs t ·) s).clusters.get k =
        if k ∈ ks then (s.clusters.get k).queueTile c bs t else s.clusters.get k) ∧
      ∀ k ∈ ks, UnitUses (ks.foldl (·.queueAt me c bs t ·) s) me c bs k := by
  induction ks generalizing s with
  | nil => exact ⟨.of_clusters rfl, by simp, nofun⟩
  | cons k ks ih =>
    obtain ⟨hk, hks⟩ := List.nodup_cons.1 h
    obtain ⟨more, queued, uses⟩ := ih hks (s.queueAt me c bs t k)
    rw [List.foldl_cons]
    refine ⟨(s.queueAt_usesMore me c bs t k).trans more, fun j => ?_, fun j hj => ?_⟩
    · rw [queued, State.queueAt_clusters]
      by_cases hj : j = k
      · simp [hj, hk]
      · simp [hj]
    · obtain rfl | hj := List.mem_cons.1 hj
      · refine (State.useBlocks_unitUses _ me c bs j).mono more ?_
        rw [queued, if_neg hk]; rfl
      · exact uses j hj

theorem State.groupClusters_nodup (s : State) (me : Region × SlotNo) (g : Nat) : (s.groupClusters me g).Nodup :=
  (((by decide : ((List.range 64).map (fin 63)).Nodup).filter _).filter _)

end Sys2Proof.Machine
end

section
/-! PROOF. An index issued to a group, and the end of a group's draws (R139, R188, R206, R361). -/

namespace Sys2Proof.Machine

/-! ## What the leader's chiplet passes on (R188) -/

/-- Index or sentinel `v` of a group sent to its positions elsewhere, when the leader is here. -/
def State.passOn (s : State) (me : Region × SlotNo) (c : Chart) (g v : Nat) : State :=
  if s.leads c g && (c.members g).any (·.chiplet != s.pk.id.toNat) then s.emit (.toPkg (.issue (s.instName me.1 me.2) g v))
  else s

theorem State.passOn_eq (s : State) (me : Region × SlotNo) (c : Chart) (g v : Nat) :
    s.passOn me c g v = { s with outbox := (s.passOn me c g v).outbox } := by
  simp only [State.passOn]; split <;> rfl

theorem State.passOn_passedOn (s : State) (me : Region × SlotNo) (c : Chart) (g v : Nat) :
    PassedOn s (s.passOn me c g v) me c g v := by
  simp only [PassedOn, State.passOn, Bool.and_eq_true, List.any_eq_true, bne_iff_ne]
  split
  · rfl
  · exact (List.append_nil _).symm

/-- What the chiplet's number settles, read from a state that has the same. -/
theorem State.passOn_onto {s t : State} (me : Region × SlotNo) (c : Chart) (g v : Nat) (h : t.pk = s.pk) :
    t.passOn me c g v = if s.leads c g && (c.members g).any (·.chiplet != s.pk.id.toNat)
      then t.emit (.toPkg (.issue (s.instName me.1 me.2) g v)) else t := by
  unfold State.passOn State.leads State.instName
  rw [h]

/-- Who leads, who lies elsewhere and the name of an `Inst` rest on the chiplet's own number alone. -/
theorem PassedOn.of_eq {s u t : State} {me : Region × SlotNo} {c : Chart} {g v : Nat} (h : PassedOn u t me c g v)
    (pk : u.pk = s.pk) (outbox : u.outbox = s.outbox) : PassedOn s t me c g v := by
  unfold PassedOn State.leads State.instName at h ⊢
  rwa [pk, outbox] at h

/-! ## Issue (R139, R188, R200) -/

/-- State `u` is `s` made ready for a draw: of what a draw reads it differs in the groups of the `Inst` alone. -/
structure Readied (s u : State) (me : Region × SlotNo) (gs : List Group) : Prop where
  clusters : u.clusters = s.clusters
  pk : u.pk = s.pk
  outbox : u.outbox = s.outbox
  inst : u.inst me.1 me.2 = { s.inst me.1 me.2 with groups := gs }

theorem Readied.groupClusters {s u : State} {me : Region × SlotNo} {gs : List Group} (h : Readied s u me gs) (g : Nat) :
    u.groupClusters me g = s.groupClusters me g := by
  simp only [State.groupClusters, State.boundClusters, h.clusters]

theorem vmod_of_fixed {α : Type} {n : Nat} (v : Vector α n) {i : Fin n} {f : α → α} (h : f (v.get i) = v.get i) :
    vmod v i f = v := by
  rw [vmod, h]
  exact Vector.set_getElem_self ..

theorem State.onGroup_of_fixed (s : State) (me : Region × SlotNo) (g : Nat) {f : Group → Group} (h : ∀ x, f x = x) :
    s.onGroup me g f = s := by
  simp only [State.onGroup, h, ite_self, List.map_id', State.onInst, State.onRegion]
  rw [vmod_of_fixed]
  rw [vmod_of_fixed _ rfl]

theorem State.onGroup_region (s : State) (me : Region × SlotNo) (g : Nat) (f : Group → Group) (r : Region) :
    ∃ xs, ((s.onGroup me g f).regions.get r) = { s.regions.get r with insts := xs } := by
  simp only [State.onGroup, State.onInst_regions, vmod_get]
  split
  · exact ⟨_, rfl⟩
  · exact ⟨_, rfl⟩

section
variable (s : State) (me : Region × SlotNo) (c : Chart) (g t : Nat)

/-- The clusters of a group here queue a tile. -/
def State.queueAll : State := (s.groupClusters me g).foldl (·.queueAt me c (s.inst me.1 me.2).bounds t ·) s

theorem State.queueAll_usesMore : UsesMore s (s.queueAll me c g t) :=
  (State.foldl_queueAt me c _ t (s.groupClusters_nodup me g) s).1

theorem State.queueAll_clusters (k : Fin 64) : (s.queueAll me c g t).clusters.get k = if k ∈ s.groupClusters me g
    then (s.clusters.get k).queueTile c (s.inst me.1 me.2).bounds t else s.clusters.get k :=
  (State.foldl_queueAt me c _ t (s.groupClusters_nodup me g) s).2.1 k

theorem State.queueAll_unitUses :
    ∀ k ∈ s.groupClusters me g, UnitUses (s.queueAll me c g t) me c (s.inst me.1 me.2).bounds k :=
  (State.foldl_queueAt me c _ t (s.groupClusters_nodup me g) s).2.2

/-- The group holds a tile as the index drawn ahead, when it has positions here. -/
def State.holdAhead (u : State) : State :=
  u.onGroup me g fun y => { y with ahead := if s.groupClusters me g = [] then y.ahead else some t }

theorem State.issue_eq :
    s.issue me c g t = (s.holdAhead me g t (s.queueAll me c g t)).passOn me c g t := by
  have pk : (s.holdAhead me g t (s.queueAll me c g t)).pk = s.pk :=
    (State.onGroup_still ..).1.trans (s.queueAll_usesMore me c g t).pk
  rw [State.passOn_onto me c g t pk]
  have held : (if (s.groupClusters me g).isEmpty then s.queueAll me c g t
      else (s.queueAll me c g t).onGroup me g fun y => { y with ahead := some t }) =
        s.holdAhead me g t (s.queueAll me c g t) := by
    by_cases h : s.groupClusters me g = []
    · simp only [State.holdAhead, h, if_true]
      exact (State.onGroup_of_fixed _ me g fun _ => rfl).symm
    · simp only [State.holdAhead, h, if_false, List.isEmpty_iff]
  rw [← held]
  rfl

end

theorem State.counter_onGroup (s : State) (me : Region × SlotNo) (g : Nat) (f : Group → Group) (m : Nat) :
    (s.onGroup me g f).counter m = s.counter m :=
  State.counter_eq (fun r => by obtain ⟨xs, h⟩ := s.onGroup_region me g f r; rw [h]) m

theorem State.passOn_clusters (s : State) (me : Region × SlotNo) (c : Chart) (g v : Nat) :
    (s.passOn me c g v).clusters = s.clusters := by
  rw [State.passOn_eq]

theorem State.passOn_regions (s : State) (me : Region × SlotNo) (c : Chart) (g v : Nat) :
    (s.passOn me c g v).regions = s.regions := by
  rw [State.passOn_eq]

theorem State.inst_passOn (s : State) (me : Region × SlotNo) (c : Chart) (g v : Nat) (r : Region) (k : SlotNo) :
    (s.passOn me c g v).inst r k = s.inst r k := by
  rw [State.passOn_eq]; rfl

theorem UnitUses.of_eq {s t : State} {me : Region × SlotNo} {c : Chart} {bs : List Nat} {k : Fin 64}
    (h : UnitUses s me c bs k) (staged : ∀ r, (t.regions.get r).fy = (s.regions.get r).fy)
    (clusters : t.clusters = s.clusters) : UnitUses t me c bs k := by
  simpa only [UnitUses, staged, clusters] using h

theorem State.issue_keeps (s : State) (me : Region × SlotNo) (c : Chart) (g t : Nat) :
    (s.issue me c g t).power = s.power ∧ ∀ m, (s.issue me c g t).counter m = s.counter m := by
  rw [State.issue_eq, State.passOn_eq]
  exact ⟨(s.queueAll_usesMore me c g t).power, fun m =>
    (State.counter_onGroup _ me g _ m).trans ((s.queueAll_usesMore me c g t).counter m)⟩

theorem State.issue_tileIssued {s u : State} {me : Region × SlotNo} {c : Chart} {g t : Nat} {redo : List Nat}
    (h : Readied s u me ((s.inst me.1 me.2).groups.map fun x => if x.g = g then { x with redo := redo } else x)) :
    TileIssued s (u.issue me c g t) me c g t redo := by
  have more := u.queueAll_usesMore me c g t
  have pk : (u.holdAhead me g t (u.queueAll me c g t)).pk = u.pk := (State.onGroup_still ..).1.trans more.pk
  have inst : (u.issue me c g t).inst me.1 me.2 = { u.inst me.1 me.2 with groups := (u.inst me.1 me.2).groups.map fun x =>
      if x.g = g then { x with ahead := if u.groupClusters me g = [] then x.ahead else some t } else x } := by
    rw [State.issue_eq, State.inst_passOn, State.holdAhead, State.inst_onGroup, more.inst]
  rw [h.inst, h.groupClusters] at inst
  refine ⟨?passed, by rw [inst], fun k => ?clusters, ?groups, fun r x hx k hk p => ?used⟩
  case passed =>
    rw [State.issue_eq]
    exact (State.passOn_passedOn ..).of_eq (pk.trans h.pk) (more.outbox.trans h.outbox)
  case clusters =>
    have queued := u.queueAll_clusters me c g t k
    rw [h.inst, h.groupClusters, h.clusters] at queued
    rw [State.issue_eq, State.passOn_clusters]
    exact queued
  case groups =>
    rw [inst, List.map_map]
    refine List.map_congr_left fun x _ => ?_
    by_cases hx : x.g = g <;> simp [hx]
  case used =>
    have uses := u.queueAll_unitUses me c g t k (h.groupClusters g ▸ hk)
    rw [h.inst] at uses
    refine uses.of_eq (t := u.issue me c g t) (fun r => ?_) ?_ r x hx p
    · obtain ⟨xs, hr⟩ := (u.queueAll me c g t).onGroup_region me g
        (fun y => { y with ahead := if u.groupClusters me g = [] then y.ahead else some t }) r
      rw [State.issue_eq, State.passOn_regions, State.holdAhead, hr]
    · rw [State.issue_eq, State.passOn_clusters]; rfl

/-! ## The end of a group's draws (R188, R206, R361) -/

/-- A group has drawn the sentinel; a Running `Inst` whose groups all have drains. -/
def State.markEnd (s : State) (me : Region × SlotNo) (g : Nat) : State :=
  (s.onGroup me g fun y => { y with done := true }).onInst me.1 me.2 fun i =>
    if i.st = .running ∧ i.groups.all (·.done) then { i with st := .draining } else i

theorem State.groupEnds_eq (s : State) (me : Region × SlotNo) (c : Chart) (g : Nat) :
    s.groupEnds me c g = (s.markEnd me g).passOn me c g (2 ^ 64 - 1) := by
  rw [State.passOn_onto me c g (2 ^ 64 - 1) (rfl : (s.markEnd me g).pk = s.pk)]
  rfl

theorem State.groupEnds_keeps (s : State) (me : Region × SlotNo) (c : Chart) (g : Nat) :
    (s.groupEnds me c g).power = s.power ∧ ∀ m, (s.groupEnds me c g).counter m = s.counter m := by
  rw [State.groupEnds_eq, State.passOn_eq]
  refine ⟨rfl, State.counter_eq fun r => ?_⟩
  simp only [State.markEnd, State.onInst_regions, State.onGroup, vmod_get]
  split <;> rfl

theorem State.groupEnds_groupEnded {s u : State} {me : Region × SlotNo} {c : Chart} {g : Nat}
    (h : Readied s u me (s.inst me.1 me.2).groups)
    (hs : (s.inst me.1 me.2).st = .running ∨ (s.inst me.1 me.2).st = .draining) :
    GroupEnded s (u.groupEnds me c g) me c g := by
  have same : u.inst me.1 me.2 = s.inst me.1 me.2 := h.inst
  have inst : (u.groupEnds me c g).inst me.1 me.2 = _ :=
    (congrArg (·.inst me.1 me.2) (u.groupEnds_eq me c g)).trans ((State.inst_passOn ..).trans (State.inst_onInst_self ..))
  rw [State.inst_onGroup, same] at inst
  refine ⟨?passed, ?clusters, ?groups, ?st⟩
  case passed =>
    rw [State.groupEnds_eq]
    exact (State.passOn_passedOn ..).of_eq h.pk h.outbox
  case clusters =>
    rw [State.groupEnds_eq, State.passOn_clusters]
    exact h.clusters
  case groups =>
    rw [inst]; split <;> rfl
  case st =>
    have all : ((s.inst me.1 me.2).groups.map fun x => if x.g = g then { x with done := true } else x).all (·.done) = true ↔
        ∀ x ∈ (s.inst me.1 me.2).groups, x.g = g ∨ x.done = true := by
      rw [List.all_map, List.all_eq_true]
      refine forall₂_congr fun x _ => ?_
      by_cases hx : x.g = g <;> simp [hx]
    rw [inst]
    simp only [all]
    by_cases ended : ∀ x ∈ (s.inst me.1 me.2).groups, x.g = g ∨ x.done = true
    · rw [if_pos ended]
      obtain run | drain := hs
      · rw [if_pos ⟨run, ended⟩]
      · rw [if_neg (by simp [drain])]; exact drain
    · rw [if_neg ended, if_neg fun x => ended x.2]

end Sys2Proof.Machine
end

section
/-! PROOF. Draws: a redo entry, a counter of this chiplet, an index from elsewhere (R188, R206, R361, R372, R423). -/

namespace Sys2Proof.Machine

/-! ## Counters (R206, R379) -/

theorem WakesOnly.of_power {s t u : State} (h : WakesOnly s t) (hu : u.power = t.power) : WakesOnly s u := by
  simpa only [WakesOnly, hu] using h

theorem State.wakeRegion_wakesOnly (s : State) (r : Region) : WakesOnly s (s.wakeRegion r) := by
  simp only [WakesOnly, State.wakeRegion, PowerSt.settle]
  (repeat' split) <;> rfl

theorem State.wakeRegion_regions (s : State) (r : Region) : (s.wakeRegion r).regions = s.regions := by
  rw [State.wakeRegion_powerOnly]

/-- Counter `n` of the chiplet has handed out its value. -/
def State.counted (s : State) (n : Nat) : State :=
  s.onRegion (fin 7 (n / 128)) fun y =>
    { y with counters := vmod y.counters (fin 127 (n % 128)) fun z => { z with value := z.value + 1 } }

theorem State.counted_own (s : State) (n : Nat) :
    (s.counted n).counter n = { s.counter n with value := (s.counter n).value + 1 } := by
  simp [State.counter, State.counted]

theorem State.counted_others (s : State) {m n : Nat} (hm : m < 1024) (hn : n < 1024) (h : m ≠ n) :
    (s.counted n).counter m = s.counter m := by
  simp only [State.counter, State.counted, State.onRegion_regions, vmod_get]
  split
  · next same =>
    have entry : fin 127 (m % 128) ≠ fin 127 (n % 128) := by
      simp only [fin, Fin.ext_iff, Fin.val_ofNat, ne_eq] at same ⊢
      omega
    rw [vmod_get_ne _ _ entry]
  · rfl

theorem State.inst_counted (s : State) (n : Nat) (r : Region) (k : SlotNo) : (s.counted n).inst r k = s.inst r k := by
  rw [State.counted]
  exact s.inst_onRegion _ r k _ fun _ => rfl

theorem State.draw_below {s : State} {n : Nat} (h : (s.counter n).value.toNat < (s.counter n).limit.toNat) :
    s.draw n = ((s.wakeRegion (fin 7 (n / 128))).counted n, (s.counter n).value.toNat) := by
  simp only [State.draw, State.wakeRegion_regions]
  exact if_pos h

theorem State.draw_sentinel {s : State} {n : Nat} (h : (s.counter n).limit.toNat ≤ (s.counter n).value.toNat) :
    s.draw n = (s.wakeRegion (fin 7 (n / 128)), 2 ^ 64 - 1) := by
  simp only [State.draw, State.wakeRegion_regions]
  exact if_neg (Nat.not_lt.2 h)

theorem State.wakeRegion_counter (s : State) (r : Region) (m : Nat) : (s.wakeRegion r).counter m = s.counter m := by
  rw [State.counter, State.wakeRegion_regions, State.counter]

theorem State.draw_cases (s : State) (n : Nat) : (s.draw n).1 = s.wakeRegion (fin 7 (n / 128)) ∨
    (s.draw n).1 = (s.wakeRegion (fin 7 (n / 128))).counted n := by
  obtain below | sentinel := Nat.lt_or_ge (s.counter n).value.toNat (s.counter n).limit.toNat
  · exact .inr (congrArg Prod.fst (State.draw_below below))
  · exact .inl (congrArg Prod.fst (State.draw_sentinel sentinel))

theorem State.wakeRegion_readied (s : State) (r : Region) (me : Region × SlotNo) :
    Readied s (s.wakeRegion r) me (s.inst me.1 me.2).groups := by
  rw [State.wakeRegion_powerOnly]; exact ⟨rfl, rfl, rfl, rfl⟩

theorem State.counted_readied {s u : State} {me : Region × SlotNo} {gs : List Group} (h : Readied s u me gs) (n : Nat) :
    Readied s (u.counted n) me gs :=
  ⟨h.clusters, h.pk, h.outbox, (u.inst_counted n me.1 me.2).trans h.inst⟩

theorem State.draw_readied (s : State) (n : Nat) (me : Region × SlotNo) :
    Readied s (s.draw n).1 me (s.inst me.1 me.2).groups := by
  obtain h | h := s.draw_cases n
  · rw [h]; exact s.wakeRegion_readied _ me
  · rw [h]; exact State.counted_readied (s.wakeRegion_readied _ me) n

theorem State.draw_wakesOnly (s : State) (n : Nat) : WakesOnly s (s.draw n).1 := by
  obtain h | h := s.draw_cases n
  · rw [h]; exact s.wakeRegion_wakesOnly _
  · rw [h]; exact s.wakeRegion_wakesOnly _

theorem State.draw_others (s : State) {m n : Nat} (hm : m < 1024) (hn : n < 1024) (h : m ≠ n) :
    (s.draw n).1.counter m = s.counter m := by
  obtain d | d := s.draw_cases n
  · rw [d, State.wakeRegion_counter]
  · rw [d, State.counted_others _ hm hn h, State.wakeRegion_counter]

/-! ## Where a drawn value goes (R188, R206) -/

/-- Value `v` drawn for a group whose `Inst` has `n` tiles: a tile's index, or the end. -/
def State.takeDrawn (s : State) (me : Region × SlotNo) (c : Chart) (g n v : Nat) : State :=
  if n ≤ v then s.groupEnds me c g else s.issue me c g v

theorem State.takeDrawn_mem (s : State) (me : Region × SlotNo) (c : Chart) (g n v : Nat) :
    (s.takeDrawn me c g n v).mem = s.mem := by
  simp only [State.takeDrawn]; split <;> simp

theorem State.takeDrawn_keeps (s : State) (me : Region × SlotNo) (c : Chart) (g n v : Nat) :
    (s.takeDrawn me c g n v).power = s.power ∧ ∀ m, (s.takeDrawn me c g n v).counter m = s.counter m := by
  simp only [State.takeDrawn]; split
  · exact s.groupEnds_keeps me c g
  · exact s.issue_keeps me c g v

/-- A group found under its number, and the only one of that number, keeps its redo entries. -/
theorem map_redo_self {gs : List Group} {n : Nat} {y : Group} (h : ∀ x ∈ gs, x.g = n → x = y) :
    gs.map (fun x => if x.g = n then { x with redo := y.redo } else x) = gs := by
  refine (List.map_congr_left fun x hx => ?_).trans (List.map_id gs)
  split
  · next hn => rw [← h x hx hn]; rfl
  · rfl

theorem State.takeDrawn_taken {s u : State} {me : Region × SlotNo} {c : Chart} {y : Group} {g n v : Nat}
    (h : Readied s u me (s.inst me.1 me.2).groups) (hy : ∀ x ∈ (s.inst me.1 me.2).groups, x.g = g → x = y)
    (hs : (s.inst me.1 me.2).st = .running ∨ (s.inst me.1 me.2).st = .draining) :
    if v < n then TileIssued s (u.takeDrawn me c g n v) me c g v y.redo
    else GroupEnded s (u.takeDrawn me c g n v) me c g := by
  by_cases hv : v < n
  · simp only [State.takeDrawn, if_pos hv, if_neg (Nat.not_le.2 hv)]
    exact State.issue_tileIssued (by rwa [map_redo_self hy])
  · simp only [State.takeDrawn, if_neg hv, if_pos (Nat.not_lt.1 hv)]
    exact State.groupEnds_groupEnded h hs

/-! ## The command (R188, R206, R372, R423) -/

theorem MayDraw.st {s : State} {me : Region × SlotNo} {y : Group} {p : Position} (h : MayDraw s me y p) :
    (s.inst me.1 me.2).st = .running ∨ (s.inst me.1 me.2).st = .draining := h.1.imp_right (·.1)

/-- The condition of a draw as the command tests it. -/
theorem mayDraw_iff (s : State) (r : Region) (slot : SlotNo) (y : Group) (p : Position) : MayDraw s (r, slot) y p ↔
    ¬ ((!((s.inst r slot).st == .running || (s.inst r slot).st == .draining &&
          (!(p.chiplet == s.pk.id.toNat) || !y.redo.isEmpty))) = true ∨ (s.inst r slot).faulting ≠ 0 ∨ y.done = true ∨
        y.ahead.isSome = true ∨ (!(!(p.chiplet == s.pk.id.toNat) ||
          s.clusterOn (fin 63 (8 * p.region + p.cluster)))) = true ∨ s.alarmed = true) := by
  simp only [MayDraw, Bool.not_eq_true', ← Bool.not_eq_true, Bool.or_eq_true, Bool.and_eq_true, beq_iff_eq,
    List.isEmpty_iff, ← Option.not_isSome_iff_eq_none]
  grind

section
variable {r : Region} {slot : SlotNo} {grp : Nat} {remote : Option W64} {s : State} {c : Chart} {y : Group} {p : Position}
  (hc : (s.inst r slot).chart = some c) (hy : (s.inst r slot).groups.find? (·.g == grp) = some y)
  (hp : c.leader grp = some p)
include hc hy hp

theorem exec_counterDraw_waits (h : ¬ MayDraw s (r, slot) y p) : exec (.counterDraw r slot grp remote) s = .next s := by
  rw [mayDraw_iff, Classical.not_not] at h
  simp only [exec, execCounterDraw, hc, hy, hp]
  exact if_pos h

variable (hm : MayDraw s (r, slot) y p)
include hm

theorem exec_counterDraw_redo {n : Nat} {rest : List Nat} (here : p.chiplet = s.pk.id.toNat) (h : y.redo = n :: rest) :
    exec (.counterDraw r slot grp remote) s =
      .next ((s.onGroup (r, slot) grp fun z => { z with redo := rest }).issue (r, slot) c grp n) := by
  rw [mayDraw_iff] at hm
  simp only [exec, execCounterDraw, hc, hy, hp]
  rw [if_neg hm]
  simp only [here, h, beq_self_eq_true, if_true]

theorem exec_counterDraw_own (here : p.chiplet = s.pk.id.toNat) (own : p.ctrChiplet = s.pk.id.toNat) (h : y.redo = []) :
    exec (.counterDraw r slot grp remote) s = .next ((s.draw p.counter).1.takeDrawn (r, slot) c grp
      (tileCount c (s.inst r slot).bounds) (s.draw p.counter).2) := by
  rw [mayDraw_iff] at hm
  simp only [exec, execCounterDraw, hc, hy, hp]
  rw [if_neg hm]
  simp only [here, own, h, beq_self_eq_true, if_true]
  rfl

theorem exec_counterDraw_elsewhere (h : y.redo = [] ∨ p.chiplet ≠ s.pk.id.toNat)
    (away : ¬ (p.chiplet = s.pk.id.toNat ∧ p.ctrChiplet = s.pk.id.toNat)) :
    exec (.counterDraw r slot grp remote) s = .next (remote.elim s fun v =>
      s.takeDrawn (r, slot) c grp (tileCount c (s.inst r slot).bounds) v.toNat) := by
  rw [mayDraw_iff] at hm
  simp only [exec, execCounterDraw, hc, hy, hp]
  rw [if_neg hm]
  have none_here : (if (p.chiplet == s.pk.id.toNat) = true then y.redo else []) = [] := by
    split
    · next here => exact h.resolve_right (Classical.not_not.2 (by simpa using here))
    · rfl
  have answered : ¬ (p.chiplet == s.pk.id.toNat && p.ctrChiplet == s.pk.id.toNat) = true := by simpa using away
  simp only [none_here]
  rw [if_neg answered]
  cases remote <;> rfl

end

/-- Settles O58: a redo entry, the own counter's value and an index from elsewhere, each by its equation of the
command; what follows a value is the same for all. -/
theorem drawsIssueTiles : Obligations.DrawsIssueTiles := by
  unfold Obligations.DrawsIssueTiles
  intro r slot grp remote s c y p hc hy hp only small
  refine ⟨exec_counterDraw_waits hc hy hp, fun hm => ⟨fun n rest here h => ?redo, fun h here own lt => ?counter,
    fun h away => ⟨fun hr => ?waits, fun v hr => ?remote⟩⟩⟩
  case redo =>
    have ready : Readied s (s.onGroup (r, slot) grp fun z => { z with redo := rest }) (r, slot)
        ((s.inst r slot).groups.map fun x => if x.g = grp then { x with redo := rest } else x) :=
      ⟨rfl, rfl, rfl, State.inst_onGroup ..⟩
    refine ⟨_, exec_counterDraw_redo hc hy hp hm here h, State.issue_tileIssued ready, fun m => ?_, ?_⟩
    · rw [(State.issue_keeps ..).2, State.counter_onGroup]
    · rw [(State.issue_frame ..).1, (State.onGroup_frame ..).1]
  case counter =>
    have taken := State.takeDrawn_taken (c := c) (g := grp) (n := tileCount c (s.inst r slot).bounds)
      (v := (s.draw p.counter).2) (s.draw_readied p.counter (r, slot)) only hm.st
    obtain ⟨power, counter⟩ := (s.draw p.counter).1.takeDrawn_keeps (r, slot) c grp
      (tileCount c (s.inst r slot).bounds) (s.draw p.counter).2
    refine ⟨_, exec_counterDraw_own hc hy hp hm here own h, ?_, (s.draw_wakesOnly _).of_power power,
      fun m hm hne => (counter m).trans (s.draw_others hm lt hne), fun below => ⟨?_, ?_⟩, fun sentinel => ⟨?_, ?_⟩⟩
    · rw [State.takeDrawn_mem, (State.draw_frame ..).1]
    · rw [counter, State.draw_below below, State.counted_own, State.wakeRegion_counter]
    · rw [h, State.draw_below below] at taken
      rw [State.draw_below below]
      exact taken
    · rw [counter, State.draw_sentinel sentinel, State.wakeRegion_counter]
    · rw [State.draw_sentinel sentinel, if_neg (by omega)] at taken
      rw [State.draw_sentinel sentinel]
      exact taken
  case waits => rw [exec_counterDraw_elsewhere hc hy hp hm h away, hr]; rfl
  case remote =>
    exact ⟨_, (exec_counterDraw_elsewhere hc hy hp hm h away).trans (by rw [hr]; rfl), (State.takeDrawn_keeps ..).2,
      State.takeDrawn_mem .., State.takeDrawn_taken ⟨rfl, rfl, rfl, rfl⟩ only hm.st⟩

end Sys2Proof.Machine
end
